-- ==== Sys2Proof/Word.lean ====
section
/-! DEFINITION. The word types of the block (00_scope.md R7): 24-bit times, 16-bit duty values,
8-bit counters and angles, and the 64-bit command word of the port (30_encoding.md R76). -/

namespace Sys2Proof

/-- A 24-bit time, edge time, interval or alarm target; it wraps modulo 2^24 (R7). -/
abbrev Time := BitVec 24

/-- A 16-bit unsigned duty value or complemented duration (R7). -/
abbrev Word16 := BitVec 16

/-- An 8-bit unsigned counter, angle or register address (R7, R76). -/
abbrev Byte := BitVec 8

/-- One 64-bit command word of the command port (R76). -/
abbrev CmdWord := BitVec 64

end Sys2Proof
end

