-- ==== Sys2Proof/Config.lean ====
section
/-! DEFINITION. The compile-time configuration of 00_scope.md R6, the constraints it must meet, and
the free values of the model (93_implementation_defined.md U3, U5, U6).

The configuration is not state: no operation writes it. `exec` has no argument for it, so a machine
carries its configuration in a field of `State` that no step changes (log entry 1). Every statement
is about every configuration that meets the constraints of R6; the parameters' names are the spec's. -/

namespace Sys2Proof

/-- Which side of the driven pair is PWM-switched (R6 PWM_SIDE, 42_commutation.md R144). -/
inductive PwmSide where
  | high
  | low
deriving DecidableEq, Repr

/-- The configuration parameters of R6 that have no fixed value, each at the width R6 gives it. -/
structure Config where
  POWER_RANGE        : Word16
  MAX_POWER          : Word16
  PWR_MIN_START      : Word16
  PWR_MAX_START      : Word16
  PWR_COOL_START     : Word16
  START_RAMP_STEP    : Word16
  RUN_RAMP_STEP      : Word16
  ENOUGH_GOODIES     : Byte
  START_MOD_INC      : Byte
  START_FAIL_INC     : Byte
  START_MOD_LIMIT    : Byte
  START_DELAY_INC    : Byte
  START_DELAY_UNIT   : Word16
  POWER_SKIP_INIT    : Byte
  SKIP_TIMEOUT       : Time
  MIN_INTERVAL       : Time
  TIMING_LIMIT_NUM   : BitVec 32
  ZC_FILTER_MIN      : Byte
  ZC_FILTER_MAX      : Byte
  DEMAG_DEGREES      : Byte
  ZC_TIMEOUT_DEGREES : Byte
  FOLLOWUP_DEGREES   : Byte
  ADVANCE_DEGREES    : Byte
  STALL_DELTA        : Time
  STALL_REPEATS      : Byte
  RC_TIMEOUT_CEIL    : Byte
  PWM_SIDE           : PwmSide
  STARTUP_PWM_DOUBLE : Bool
  REVERSE            : Bool
deriving DecidableEq, Repr

namespace Config

/-- The interval at or above which the reciprocal timing limit applies: R6 fixes it at 1700. -/
def SPEED_THRESHOLD_INTERVAL : Time := 1700

/-- The floor of the slow-throttle cap: R6 fixes it at 0. -/
def SLOW_THROTTLE_FLOOR : Word16 := 0

/-- The ranges and constraints of R6. -/
def valid (c : Config) : Bool :=
  decide (2 ≤ c.POWER_RANGE.toNat) && decide (c.POWER_RANGE.toNat ≤ 32768) &&
  decide (1 ≤ c.MAX_POWER.toNat) && decide (c.MAX_POWER.toNat ≤ c.POWER_RANGE.toNat - 1) &&
  decide (2 * c.MAX_POWER.toNat ≤ 65535) &&
  decide (c.PWR_MIN_START.toNat ≤ c.MAX_POWER.toNat) &&
  decide (c.PWR_COOL_START.toNat ≤ c.PWR_MAX_START.toNat) &&
  decide (c.PWR_MAX_START.toNat ≤ c.MAX_POWER.toNat) &&
  decide (1 ≤ c.ENOUGH_GOODIES.toNat) &&
  decide (1 ≤ c.SKIP_TIMEOUT.toNat) && decide (c.SKIP_TIMEOUT.toNat ≤ 0x7FFFFF) &&
  decide (1 ≤ c.MIN_INTERVAL.toNat) &&
  decide (1 ≤ c.ZC_FILTER_MIN.toNat) && decide (c.ZC_FILTER_MIN.toNat ≤ c.ZC_FILTER_MAX.toNat) &&
  decide (c.ADVANCE_DEGREES.toNat ≤ 30) &&
  decide (1 ≤ c.STALL_DELTA.toNat) && decide (c.STALL_DELTA.toNat ≤ 0x7FFFFF) &&
  decide (1 ≤ c.STALL_REPEATS.toNat) && decide (1 ≤ c.RC_TIMEOUT_CEIL.toNat)

/-- The example configuration EX of 95_test_vectors.md §0: for tests and witnesses only. -/
def ex : Config where
  POWER_RANGE := 256
  MAX_POWER := 255
  PWR_MIN_START := 16
  PWR_MAX_START := 64
  PWR_COOL_START := 32
  START_RAMP_STEP := 4
  RUN_RAMP_STEP := 16
  ENOUGH_GOODIES := 8
  START_MOD_INC := 16
  START_FAIL_INC := 16
  START_MOD_LIMIT := 96
  START_DELAY_INC := 8
  START_DELAY_UNIT := 16
  POWER_SKIP_INIT := 2
  SKIP_TIMEOUT := 4000
  MIN_INTERVAL := 200
  TIMING_LIMIT_NUM := 433500
  ZC_FILTER_MIN := 2
  ZC_FILTER_MAX := 16
  DEMAG_DEGREES := 32
  ZC_TIMEOUT_DEGREES := 192
  FOLLOWUP_DEGREES := 64
  ADVANCE_DEGREES := 17
  STALL_DELTA := 0x400000
  STALL_REPEATS := 4
  RC_TIMEOUT_CEIL := 50
  PWM_SIDE := .high
  STARTUP_PWM_DOUBLE := false
  REVERSE := false

end Config

/-- A configuration paired with the proof that it meets R6. A configuration that breaks a constraint
cannot be given to the machine: that is the refusal of 70_reset_and_hazards.md R282 (U4). The default
values only show that such a configuration exists. -/
structure ValidConfig where
  val : Config := Config.ex
  ok  : val.valid = true := by decide
deriving DecidableEq, Repr, Inhabited

/-- R282: a configuration that breaks a constraint of R6 is refused (`none`). -/
def Config.accept? (c : Config) : Option ValidConfig :=
  if h : c.valid = true then some ⟨c, h⟩ else none

/-- The configuration the block was built with: every parameter is OPEN (92_eei_decisions.md D59), so
nothing is known of it but that it meets R6 (log entry 1). -/
opaque Config.impl : ValidConfig

/-- The clock at power-on: "any natural number (a draw)" (10_state.md R21; log entry 2). -/
opaque Config.powerOnTau : Nat

/-- The clock after the n-th free draw of a RESET (R280, U5; log entry 2). -/
opaque Config.freeTau : Nat → Nat

/-- The n-th comparator sample nobody has put into State (10_state.md R34, U6; log entry 3). -/
opaque Config.freeCmp : Nat → Bool

end Sys2Proof
end

