-- ==== Sys2Proof/Syntax.lean ====
section
/-! DEFINITION. The operations of the command port (30_encoding.md R79, R87): one constructor per row
of spec/opcode_table.json, with the operand fields the row takes, at their widths (R76, R77). -/

namespace Sys2Proof

/-- The elements of the observation map (10_state.md R39), one name per address. -/
inductive Reg where
  | PC | STEPIDX | SUPSTATE | CSM | PHASES | SW | FLAGS | IND | PWMMODE | NOW | ALARMTGT
  | LASTEDGE | LASTLASTEDGE | INTERVAL | TIMINGLIMIT | ZCCONF | ZCWIDTH | ZCT0
  | CMDDUTY | RATEDUTY | ONTIMEC | OFFTIMEC | RCTIMEOUT | BEACON | PWMRELOAD | PWMEXT
  | GOODIES | STARTDELAY | STARTMOD | STARTFAIL | POWERSKIP | STALLCOUNT | LASTEVENT
deriving DecidableEq, Repr

/-- The operation codes' names (R79, R87). -/
inductive Op where
  | armabs | armrel | waital | now
  | recedge | predict | deg2t | tlimit
  | commut | alloff
  | zcarm | demagp | edgep | confirm | demagto | zcto | skiparm | feedbk
  | setthr | recomp
  | restart | startfr | eval | failed
  | step | rdreg
  | tick | pwmovf | takeirq | reset
deriving DecidableEq, Repr

/-- One operation of the command port with its operands (R79, R87). -/
inductive Instr where
  | armabs (targetTime : Time)
  | armrel (delta : Time)
  | waital
  | now
  | recedge (currentTime : Time)
  | predict (advanceDegrees : Byte)
  | deg2t (baseInterval referenceTime : Time) (degrees : Byte)
  | tlimit
  | commut
  | alloff
  | zcarm
  | demagp
  | edgep
  | confirm
  | demagto
  | zcto
  | skiparm
  | feedbk
  | setthr (value : Word16)
  | recomp
  | restart
  | startfr
  | eval
  | failed
  | step
  | rdreg (reg : Reg)
  | tick (cycles : Time)
  | pwmovf
  | takeirq
  | reset
deriving DecidableEq, Repr

end Sys2Proof
end

