-- ==== Sys2Proof/WellFormed.lean ====
section
/-! DEFINITION. Which operations a command word can stand for. The operand widths and the observation
map's addresses are in the types of `Instr`; what is left is the one operand range of 30_encoding.md
R88(3): PREDICT takes an advance of 0 to 30 degrees. -/

namespace Sys2Proof

/-- R88(3): `advanceDegrees` is 0..30 (41_timing_predictor.md R122). -/
def advanceInRange (b : Byte) : Bool := decide (b.toNat ≤ 30)

/-- The operation is one a command word encodes: its operands are in range (R88). -/
def Instr.wellFormed : Instr → Bool
  | .predict b => advanceInRange b
  | .armabs _ | .armrel _ | .waital | .now | .recedge _ | .deg2t _ _ _ | .tlimit | .commut | .alloff
  | .zcarm | .demagp | .edgep | .confirm | .demagto | .zcto | .skiparm | .feedbk | .setthr _ | .recomp
  | .restart | .startfr | .eval | .failed | .step | .rdreg _ | .tick _ | .pwmovf | .takeirq | .reset => true

end Sys2Proof
end

