-- ==== Sys2Proof/Decode.lean ====
section
/-! DEFINITION. Decoding a 64-bit command word (30_encoding.md R76, R77, R79, R87, R88) and the
encoder that writes it. The decoder is total and rejects by reason, in the order of R88. -/

namespace Sys2Proof

/-- The reasons for which the command port refuses a word (R88), in the order they are checked. -/
inductive PortRefusal where
  /-- OPC is not a code of R79 or R87. -/
  | illegalOpcode
  /-- An operand field the operation does not take is not zero. -/
  | reservedField
  /-- PREDICT with an advance above 30. -/
  | operandRange
  /-- RDREG of an address outside the map of R39. -/
  | reservedAddress
deriving DecidableEq, Repr

/-! ## The four fields of a word (R76) -/

/-- Bits [63:56]: the operation code. -/
def opcField (w : CmdWord) : Byte := w.extractLsb' 56 8
/-- Bits [55:48]: the byte operand. -/
def bField (w : CmdWord) : Byte := w.extractLsb' 48 8
/-- Bits [47:24]: the second 24-bit operand. -/
def yField (w : CmdWord) : Time := w.extractLsb' 24 24
/-- Bits [23:0]: the first 24-bit operand. -/
def xField (w : CmdWord) : Time := w.extractLsb' 0 24

/-- The word `{OPC, B, Y, X}` (R90). -/
def packWord (opc b : Byte) (y x : Time) : CmdWord :=
  (opc.setWidth 64 <<< 56) ||| (b.setWidth 64 <<< 48) ||| (y.setWidth 64 <<< 24) ||| x.setWidth 64

/-! ## The opcode map (R79, R87) -/

/-- One row of the opcode map: the code, and how many low bits of X, Y and B the operation takes. -/
structure OpRow where
  op    : Op
  code  : Byte
  xBits : Nat
  yBits : Nat
  bBits : Nat
deriving DecidableEq, Repr

/-- The row of each operation: R79 and R87; for SETTHR only X[15:0] is an operand (R77). -/
def opRow : Op → OpRow
  | .armabs  => ⟨.armabs,  0x01, 24, 0, 0⟩
  | .armrel  => ⟨.armrel,  0x02, 24, 0, 0⟩
  | .waital  => ⟨.waital,  0x03, 0, 0, 0⟩
  | .now     => ⟨.now,     0x04, 0, 0, 0⟩
  | .recedge => ⟨.recedge, 0x10, 24, 0, 0⟩
  | .predict => ⟨.predict, 0x11, 0, 0, 8⟩
  | .deg2t   => ⟨.deg2t,   0x12, 24, 24, 8⟩
  | .tlimit  => ⟨.tlimit,  0x13, 0, 0, 0⟩
  | .commut  => ⟨.commut,  0x20, 0, 0, 0⟩
  | .alloff  => ⟨.alloff,  0x21, 0, 0, 0⟩
  | .zcarm   => ⟨.zcarm,   0x30, 0, 0, 0⟩
  | .demagp  => ⟨.demagp,  0x31, 0, 0, 0⟩
  | .edgep   => ⟨.edgep,   0x32, 0, 0, 0⟩
  | .confirm => ⟨.confirm, 0x33, 0, 0, 0⟩
  | .demagto => ⟨.demagto, 0x34, 0, 0, 0⟩
  | .zcto    => ⟨.zcto,    0x35, 0, 0, 0⟩
  | .skiparm => ⟨.skiparm, 0x36, 0, 0, 0⟩
  | .feedbk  => ⟨.feedbk,  0x37, 0, 0, 0⟩
  | .setthr  => ⟨.setthr,  0x40, 16, 0, 0⟩
  | .recomp  => ⟨.recomp,  0x41, 0, 0, 0⟩
  | .restart => ⟨.restart, 0x50, 0, 0, 0⟩
  | .startfr => ⟨.startfr, 0x51, 0, 0, 0⟩
  | .eval    => ⟨.eval,    0x52, 0, 0, 0⟩
  | .failed  => ⟨.failed,  0x53, 0, 0, 0⟩
  | .step    => ⟨.step,    0x60, 0, 0, 0⟩
  | .rdreg   => ⟨.rdreg,   0x61, 0, 0, 8⟩
  | .tick    => ⟨.tick,    0x70, 24, 0, 0⟩
  | .pwmovf  => ⟨.pwmovf,  0x71, 0, 0, 0⟩
  | .takeirq => ⟨.takeirq, 0x72, 0, 0, 0⟩
  | .reset   => ⟨.reset,   0x7F, 0, 0, 0⟩

/-- Every operation, in the order of the opcode table. -/
def allOps : List Op :=
  [.armabs, .armrel, .waital, .now, .recedge, .predict, .deg2t, .tlimit, .commut, .alloff,
   .zcarm, .demagp, .edgep, .confirm, .demagto, .zcto, .skiparm, .feedbk, .setthr, .recomp,
   .restart, .startfr, .eval, .failed, .step, .rdreg, .tick, .pwmovf, .takeirq, .reset]

/-- The operation of a code; no other code has one (R88(1), R89). -/
def opOfCode (c : Byte) : Option Op := allOps.find? fun o => (opRow o).code == c

/-! ## The observation map's addresses (10_state.md R39) -/

/-- The address of an element of the map. -/
def Reg.addr : Reg → Byte
  | .PC => 0x00 | .STEPIDX => 0x01 | .SUPSTATE => 0x02 | .CSM => 0x03 | .PHASES => 0x04 | .SW => 0x05
  | .FLAGS => 0x06 | .IND => 0x07 | .PWMMODE => 0x08 | .NOW => 0x09 | .ALARMTGT => 0x0A
  | .LASTEDGE => 0x10 | .LASTLASTEDGE => 0x11 | .INTERVAL => 0x12 | .TIMINGLIMIT => 0x13
  | .ZCCONF => 0x14 | .ZCWIDTH => 0x15 | .ZCT0 => 0x16
  | .CMDDUTY => 0x20 | .RATEDUTY => 0x21 | .ONTIMEC => 0x22 | .OFFTIMEC => 0x23 | .RCTIMEOUT => 0x24
  | .BEACON => 0x25 | .PWMRELOAD => 0x26 | .PWMEXT => 0x27
  | .GOODIES => 0x30 | .STARTDELAY => 0x31 | .STARTMOD => 0x32 | .STARTFAIL => 0x33
  | .POWERSKIP => 0x34 | .STALLCOUNT => 0x35 | .LASTEVENT => 0x3F

/-- Every element of the map, by rising address. -/
def allRegs : List Reg :=
  [.PC, .STEPIDX, .SUPSTATE, .CSM, .PHASES, .SW, .FLAGS, .IND, .PWMMODE, .NOW, .ALARMTGT,
   .LASTEDGE, .LASTLASTEDGE, .INTERVAL, .TIMINGLIMIT, .ZCCONF, .ZCWIDTH, .ZCT0,
   .CMDDUTY, .RATEDUTY, .ONTIMEC, .OFFTIMEC, .RCTIMEOUT, .BEACON, .PWMRELOAD, .PWMEXT,
   .GOODIES, .STARTDELAY, .STARTMOD, .STARTFAIL, .POWERSKIP, .STALLCOUNT, .LASTEVENT]

/-- The element at an address; every other address is reserved (R39, R88(4)). -/
def regOfAddr (a : Byte) : Option Reg := allRegs.find? fun r => r.addr == a

/-! ## The decoder -/

/-- R88(2): some bit the operation does not take is set. -/
def hasReservedBits (r : OpRow) (w : CmdWord) : Bool :=
  decide (2 ^ r.xBits ≤ (xField w).toNat) || decide (2 ^ r.yBits ≤ (yField w).toNat) ||
    decide (2 ^ r.bBits ≤ (bField w).toNat)

/-- The operation with its operands assembled (R77), and the operand checks R88(3) and R88(4). -/
def assemble (o : Op) (w : CmdWord) : Except PortRefusal Instr :=
  match o with
  | .armabs  => .ok (.armabs (xField w))
  | .armrel  => .ok (.armrel (xField w))
  | .waital  => .ok .waital
  | .now     => .ok .now
  | .recedge => .ok (.recedge (xField w))
  | .predict => if advanceInRange (bField w) then .ok (.predict (bField w)) else .error .operandRange
  | .deg2t   => .ok (.deg2t (xField w) (yField w) (bField w))
  | .tlimit  => .ok .tlimit
  | .commut  => .ok .commut
  | .alloff  => .ok .alloff
  | .zcarm   => .ok .zcarm
  | .demagp  => .ok .demagp
  | .edgep   => .ok .edgep
  | .confirm => .ok .confirm
  | .demagto => .ok .demagto
  | .zcto    => .ok .zcto
  | .skiparm => .ok .skiparm
  | .feedbk  => .ok .feedbk
  | .setthr  => .ok (.setthr ((xField w).truncate 16))
  | .recomp  => .ok .recomp
  | .restart => .ok .restart
  | .startfr => .ok .startfr
  | .eval    => .ok .eval
  | .failed  => .ok .failed
  | .step    => .ok .step
  | .rdreg   => match regOfAddr (bField w) with
                | some r => .ok (.rdreg r)
                | none   => .error .reservedAddress
  | .tick    => .ok (.tick (xField w))
  | .pwmovf  => .ok .pwmovf
  | .takeirq => .ok .takeirq
  | .reset   => .ok .reset

/-- Decode a command word, or refuse it with the first reason of R88 that holds. -/
def decode (w : CmdWord) : Except PortRefusal Instr :=
  match opOfCode (opcField w) with
  | none   => .error .illegalOpcode
  | some o => if hasReservedBits (opRow o) w then .error .reservedField else assemble o w

/-! ## The encoder (R79, R87, R90) -/

/-- The operation of an instruction. -/
def Instr.op : Instr → Op
  | .armabs _ => .armabs | .armrel _ => .armrel | .waital => .waital | .now => .now
  | .recedge _ => .recedge | .predict _ => .predict | .deg2t _ _ _ => .deg2t | .tlimit => .tlimit
  | .commut => .commut | .alloff => .alloff
  | .zcarm => .zcarm | .demagp => .demagp | .edgep => .edgep | .confirm => .confirm
  | .demagto => .demagto | .zcto => .zcto | .skiparm => .skiparm | .feedbk => .feedbk
  | .setthr _ => .setthr | .recomp => .recomp
  | .restart => .restart | .startfr => .startfr | .eval => .eval | .failed => .failed
  | .step => .step | .rdreg _ => .rdreg
  | .tick _ => .tick | .pwmovf => .pwmovf | .takeirq => .takeirq | .reset => .reset

/-- The X operand of an instruction, 0 where it takes none. -/
def Instr.xOperand : Instr → Time
  | .armabs x | .armrel x | .recedge x | .deg2t x _ _ | .tick x => x
  | .setthr v => v.zeroExtend 24
  | .waital | .now | .predict _ | .tlimit | .commut | .alloff | .zcarm | .demagp | .edgep | .confirm
  | .demagto | .zcto | .skiparm | .feedbk | .recomp | .restart | .startfr | .eval | .failed | .step
  | .rdreg _ | .pwmovf | .takeirq | .reset => 0

/-- The Y operand of an instruction, 0 where it takes none. -/
def Instr.yOperand : Instr → Time
  | .deg2t _ y _ => y
  | .armabs _ | .armrel _ | .waital | .now | .recedge _ | .predict _ | .tlimit | .commut | .alloff
  | .zcarm | .demagp | .edgep | .confirm | .demagto | .zcto | .skiparm | .feedbk | .setthr _ | .recomp
  | .restart | .startfr | .eval | .failed | .step | .rdreg _ | .tick _ | .pwmovf | .takeirq | .reset => 0

/-- The B operand of an instruction, 0 where it takes none. -/
def Instr.bOperand : Instr → Byte
  | .predict b | .deg2t _ _ b => b
  | .rdreg r => r.addr
  | .armabs _ | .armrel _ | .waital | .now | .recedge _ | .tlimit | .commut | .alloff
  | .zcarm | .demagp | .edgep | .confirm | .demagto | .zcto | .skiparm | .feedbk | .setthr _ | .recomp
  | .restart | .startfr | .eval | .failed | .step | .tick _ | .pwmovf | .takeirq | .reset => 0

/-- The command word of a well-formed instruction. -/
def encode (i : Instr) : CmdWord :=
  packWord (opRow i.op).code i.bOperand i.yOperand i.xOperand

/-- What the decoder reads from a word given as a number (bit 0 the least significant bit): a command
word is one 64-bit word, so a number that needs more bits is none. -/
def decodeTableWord (nbits w : Nat) : Option Instr :=
  if nbits ≤ 64 && w < 2 ^ 64 then
    match decode (BitVec.ofNat 64 w) with
    | .ok i    => some i
    | .error _ => none
  else none

end Sys2Proof
end

