-- ==== Sys2Proof/Machine/State.lean ====
section
/-! DEFINITION. The state of the block as plain data: every element of 10_state.md R21 to R35, grouped
as the spec groups it and under the spec's names, and its reset (70_reset_and_hazards.md R280).

Two groups are the model's own carriers and no state of the spec: `config` (the compile-time
configuration, which no step changes, log entry 1) and `env` (the inputs other agents have supplied:
the command words the host presents, the comparator samples and the clock draws, log entries 2 to 4). -/

namespace Sys2Proof.Machine

/-! ## The codes the elements hold (the codes R36 says are never held have no constructor) -/

/-- One of the three motor phases (R8). `Option Phase` is R25's 2-bit code, `none` being NONE. -/
inductive Phase where
  | A | B | C
deriving DecidableEq, Repr

/-- The six commutation states S0..S5 (42_commutation.md R140). -/
inductive CommStep where
  | S0 | S1 | S2 | S3 | S4 | S5
deriving DecidableEq, Repr

/-- The present commutation state: a step, or ALLOFF (R25). -/
inductive Csm where
  | step (n : CommStep)
  | allOff
deriving DecidableEq, Repr

/-- The output of one half-bridge (R31). -/
inductive SwState where
  | off | high | low
deriving DecidableEq, Repr

/-- The waveform variant (R27). -/
inductive PwmMode where
  | off | normal | long | full
deriving DecidableEq, Repr

/-- Which edge window the detector is in (R26). -/
inductive ZcWindow where
  | primary | followup
deriving DecidableEq, Repr

/-- The supervisor automaton's state (R32). -/
inductive SupState where
  | idle | starting | running | stalled | failed
deriving DecidableEq, Repr

/-- The sequencer state `pc` (R33, 45_supervisor.md R220). -/
inductive SeqPc where
  | idle | commutate | skipWait | demagWait | edgeFilter | commWait | evaluate | stallDelay | failed
deriving DecidableEq, Repr

/-- The recorded events (60_exceptions.md R250). -/
inductive Event where
  | none
  | zcTimeout
  | zcFollowup
  | demagTimeout
  | stall
  | startFailed
  | overspeedClamp
  | signalLoss
  | restart
  | powerCeilingZero
  | refused (r : PortRefusal)
deriving DecidableEq, Repr

/-! ## The groups of elements -/

/-- R22: the one alarm. -/
structure AlarmState where
  alarmPending  : Bool
  alarmDeadline : Nat
deriving DecidableEq, Repr

/-- R23: the interrupt request flags. -/
structure IrqFlags where
  cmpIrq : Bool
  ovfIrq : Bool
  pwmIrq : Bool
deriving DecidableEq, Repr

/-- R24: the timing state. -/
structure TimingState where
  lastEdge         : Time
  lastLastEdge     : Time
  interval         : Time
  fastPathEligible : Bool
  timingDutyLimit  : Word16
deriving DecidableEq, Repr

/-- R25: the commutation state. -/
structure CommState where
  csm        : Csm
  pwmPhase   : Option Phase
  fixedPhase : Option Phase
  sensePhase : Option Phase
  preLevel   : Bool
deriving DecidableEq, Repr

/-- R26: the zero-cross detector. -/
structure ZcState where
  conf     : Byte
  width    : Byte
  zcWindow : ZcWindow
  zcT0     : Time
deriving DecidableEq, Repr

/-- R27: the duty state. -/
structure DutyState where
  commandedDuty   : Word16
  rateLimitedDuty : Word16
  onTimeC         : Word16
  offTimeC        : Word16
  pwmMode         : PwmMode
  fullPowerFlag   : Bool
  powerOnFlag     : Bool
  dutyTracking    : Bool
  rcTimeout       : Byte
deriving DecidableEq, Repr

/-- R29: the waveform generator. -/
structure WaveState where
  pwmEnabled    : Bool
  wavePhase     : Bool
  pwmExt        : Byte
  pwmReload     : Byte
  pwmOut        : Bool
  pwmSuppressed : Bool
  demagSkip     : Bool
deriving DecidableEq, Repr

/-- R30: the indicator outputs. -/
structure Indicators where
  faultInd     : Bool
  disarmedInd  : Bool
  failInd      : Bool
  senseEnabled : Bool
deriving DecidableEq, Repr

/-- R31: the power-stage outputs `sw[A]`, `sw[B]`, `sw[C]`. -/
structure Switches where
  a : SwState
  b : SwState
  c : SwState
deriving DecidableEq, Repr

/-- R32: the startup state. -/
structure StartupState where
  goodies        : Byte
  startDelay     : Byte
  startModulate  : Byte
  startFail      : Byte
  powerSkipCount : Byte
  stallCount     : Byte
  supState       : SupState
deriving DecidableEq, Repr

/-- R33: the foreground sequencer; `stepInCycle` is 0..5. -/
structure SeqState where
  pc          : SeqPc
  stepInCycle : Fin 6
deriving DecidableEq, Repr

/-- R35: status and the command port's result register. -/
structure StatusState where
  lastEvent : Event
  err       : Bool
  res       : Time
deriving DecidableEq, Repr

/-- The model's own: what the other agents have supplied and the block has not yet taken. `port` is
the command words the host presents, the next one first; `cmpIn` the comparator samples and `tauIn`
the clock draws of a RESET, each used before any free value; `draws` counts the free values used. -/
structure EnvInputs where
  port  : List CmdWord
  cmpIn : List Bool
  tauIn : List Nat
  draws : Nat
deriving DecidableEq, Repr

/-- The state of the machine. -/
structure State where
  tau         : Nat           -- R21
  alarm       : AlarmState    -- R22
  irq         : IrqFlags      -- R23
  timing      : TimingState   -- R24
  comm        : CommState     -- R25
  zc          : ZcState       -- R26
  duty        : DutyState     -- R27
  beaconCount : Byte          -- R28
  wave        : WaveState     -- R29
  ind         : Indicators    -- R30
  sw          : Switches      -- R31
  start       : StartupState  -- R32
  seq         : SeqState      -- R33
  status      : StatusState   -- R35
  config      : ValidConfig   -- the model's own: the configuration of R6
  env         : EnvInputs     -- the model's own: the inputs of R34 and the words of R75
deriving DecidableEq, Repr

/-- The configuration parameters of the machine (R6). -/
abbrev State.cfg (s : State) : Config := s.config.val

/-- Why a step stops with a fault: never. The block has no traps (60_exceptions.md R250, R251), no
operation can fail (R251), and the codes that 93_implementation_defined.md V5 and V6 would have a model
fault on cannot be written down in this State: there is no constructor, so no instruction raises a
fault, which is safe. -/
inductive Fault where
deriving DecidableEq, Repr

/-- Why a step is refused. -/
inductive Refusal where
  /-- The instruction has no meaning in this model. No arm of `exec` answers it: every row of the
  opcode table has its meaning. It would be safe: nothing is claimed of what follows. -/
  | notModelled (mnemonic : String)
deriving DecidableEq, Repr

/-! ## Reset -/

/-- R280: every element of R22 to R35 at its reset value, for a configuration, a clock draw, and the
inputs the other agents have pending. -/
def State.resetWith (config : ValidConfig) (tau : Nat) (env : EnvInputs) : State where
  tau := tau
  alarm := { alarmPending := false, alarmDeadline := 0 }
  irq := { cmpIrq := false, ovfIrq := false, pwmIrq := false }
  timing := { lastEdge := 0, lastLastEdge := 0, interval := 0, fastPathEligible := true
              timingDutyLimit := config.val.MAX_POWER }
  comm := { csm := .allOff, pwmPhase := none, fixedPhase := none, sensePhase := none, preLevel := false }
  zc := { conf := 0, width := 0, zcWindow := .primary, zcT0 := 0 }
  duty := { commandedDuty := 0, rateLimitedDuty := 0, onTimeC := 0xFFFF
            offTimeC := ~~~config.val.MAX_POWER, pwmMode := .off, fullPowerFlag := false
            powerOnFlag := false, dutyTracking := false, rcTimeout := 0 }
  beaconCount := 0
  wave := { pwmEnabled := false, wavePhase := false, pwmExt := 0, pwmReload := 0, pwmOut := false
            pwmSuppressed := false, demagSkip := false }
  ind := { faultInd := false, disarmedInd := false, failInd := false, senseEnabled := false }
  sw := { a := .off, b := .off, c := .off }
  start := { goodies := 0, startDelay := 0, startModulate := 0, startFail := 0, powerSkipCount := 0
             stallCount := 0, supState := .idle }
  seq := { pc := .idle, stepInCycle := 0 }
  status := { lastEvent := .none, err := false, res := 0 }
  config := config
  env := env

/-- The machine right after power-on: the configuration it was built with, a clock draw (R21), no
word presented and no input pending. -/
def State.reset : State :=
  State.resetWith Config.impl Config.powerOnTau { port := [], cmpIn := [], tauIn := [], draws := 0 }

end Sys2Proof.Machine
end

