-- ==== Sys2Proof/Machine/Operands.lean ====
section
/-! DEFINITION. The values operations work on: the clock reading and the 24-bit time arithmetic
(40_timer_scheduler.md R101, R103; 41_timing_predictor.md R121 to R125), the widths of the spec's
unbounded integers narrowed to a register (00_scope.md R9, R10), and the draws of the environment's
inputs (10_state.md R34, R21). -/

namespace Sys2Proof.Machine

/-! ## Narrowing (R9, R10: `min`, `max` and sums are on unbounded integers, then written) -/

/-- An integer the rules show to be in range, written to a 16-bit element. -/
def toWord16 (n : Nat) : Word16 := BitVec.ofNat 16 n

/-- An integer the rules show to be in range, written to an 8-bit element. -/
def toByte (n : Nat) : Byte := BitVec.ofNat 8 n

/-- An integer written to a 24-bit element, modulo 2^24. -/
def toTime (n : Nat) : Time := BitVec.ofNat 24 n

/-- `clamp(v, lo, hi) = min(max(v, lo), hi)` on unbounded integers (R9). -/
def clamp (v lo hi : Nat) : Nat := min (max v lo) hi

/-! ## The clock (R101, R103) -/

/-- R101: `now() = tau mod 2^24`. -/
def now (s : State) : Time := toTime s.tau

/-- R103: how far the target T lies ahead of the time n, modulo 2^24. -/
def ahead (T n : Time) : Time := T - n

/-- R103: T has elapsed when it is n itself or lies up to 2^23 cycles behind it. -/
def elapsed (T n : Time) : Bool := (ahead T n).toNat == 0 || decide (0x800000 ≤ (ahead T n).toNat)

/-! ## Time arithmetic of the predictor -/

/-- R121: the midpoint of the last two edges, along the forward distance and rounded down. -/
def edgeMidpoint (t : TimingState) : Time :=
  t.lastLastEdge + ((t.lastEdge - t.lastLastEdge) >>> 1)

/-- R122: `interval + floor(interval * advanceDegrees / 180)`, exact. -/
def extension (interval : Time) (advanceDegrees : Byte) : Nat :=
  interval.toNat + interval.toNat * advanceDegrees.toNat / 180

/-- R122: `predictNextCrossing(advanceDegrees)`. -/
def predictNextCrossing (t : TimingState) (advanceDegrees : Byte) : Time :=
  edgeMidpoint t + toTime (extension t.interval advanceDegrees)

/-- A cheaper path of predictNextCrossing for an interval that fits 16 bits. DESIGN CHOICE: R107 and
R126 ask that such a path gives the same result and leave what it computes to the realisation; the
model takes all of R122 in 24-bit arithmetic (log entry 14). No operation uses it. -/
def predictNextCrossingFast (t : TimingState) (advanceDegrees : Byte) : Time :=
  edgeMidpoint t + (t.interval + t.interval * advanceDegrees.zeroExtend 24 / 180#24)

/-- R123: the byte-split multiply with one 32-bit accumulator. -/
def degreesAcc (baseInterval : Time) (degrees : Byte) : BitVec 32 :=
  let d  : BitVec 32 := degrees.zeroExtend 32
  let b0 : BitVec 32 := (baseInterval.extractLsb' 0 8).zeroExtend 32
  let b1 : BitVec 32 := (baseInterval.extractLsb' 8 8).zeroExtend 32
  let b2 : BitVec 32 := (baseInterval.extractLsb' 16 8).zeroExtend 32
  b0 * d + ((b1 * d) <<< 8) + ((b2 * d) <<< 16)

/-- R123: `degreesToTime(baseInterval, referenceTime, degrees)`. -/
def degreesToTime (baseInterval referenceTime : Time) (degrees : Byte) : Time :=
  referenceTime + (degreesAcc baseInterval degrees >>> 8).truncate 24

/-- R107, R126: the cheaper path of degreesToTime for an interval that fits 16 bits: the product
without the third byte. -/
def degreesToTimeFast (baseInterval : Word16) (referenceTime : Time) (degrees : Byte) : Time :=
  let d  : BitVec 32 := degrees.zeroExtend 32
  let b0 : BitVec 32 := (baseInterval.extractLsb' 0 8).zeroExtend 32
  let b1 : BitVec 32 := (baseInterval.extractLsb' 8 8).zeroExtend 32
  referenceTime + ((b0 * d + ((b1 * d) <<< 8)) >>> 8).truncate 24

/-! ## Restoring division (R125) -/

/-- R125: one round of the division, for dividend bit i: the quotient and remainder so far. -/
def restoreRound (N : BitVec 32) (D : Time) (i : Nat) (qr : BitVec 32 × BitVec 25) :
    BitVec 32 × BitVec 25 :=
  let r : BitVec 25 := (qr.2 <<< 1) ||| (BitVec.ofBool (N.getLsbD i)).zeroExtend 25
  if D.toNat ≤ r.toNat then (qr.1 ||| (1#32 <<< i), r - D.zeroExtend 25) else (qr.1, r)

/-- R125: the rounds for dividend bits i-1 down to 0. -/
def restoreRounds (N : BitVec 32) (D : Time) : Nat → BitVec 32 × BitVec 25 → BitVec 32 × BitVec 25
  | 0,     qr => qr
  | i + 1, qr => restoreRounds N D i (restoreRound N D i qr)

/-- R125: quotient and remainder of a 32-bit dividend by a 24-bit divisor, bit 31 first. -/
def restoringDivMod (N : BitVec 32) (D : Time) : BitVec 32 × BitVec 25 :=
  restoreRounds N D 32 (0, 0)

/-- R125: `restoringDivide(N, D)`. -/
def restoringDivide (N : BitVec 32) (D : Time) : BitVec 32 := (restoringDivMod N D).1

/-! ## The zero-cross filter width (43_zero_cross.md R170) -/

/-- R170: a quarter of the interval, clamped. -/
def zcWidth (c : Config) (interval : Time) : Byte :=
  toByte (clamp (interval.toNat / 4) c.ZC_FILTER_MIN.toNat c.ZC_FILTER_MAX.toNat)

/-! ## Draws (R34: one comparator sample per poll; R21: the clock at reset) -/

/-- One comparator sample: the next one the environment has supplied, else a free value. -/
def drawCmp (e : EnvInputs) : Bool × EnvInputs :=
  match e.cmpIn with
  | b :: rest => (b, { e with cmpIn := rest })
  | []        => (Config.freeCmp e.draws, { e with draws := e.draws + 1 })

/-- One clock draw of a reset: the next one the environment has supplied, else a free value. -/
def drawTau (e : EnvInputs) : Nat × EnvInputs :=
  match e.tauIn with
  | n :: rest => (n, { e with tauIn := rest })
  | []        => (Config.freeTau e.draws, { e with draws := e.draws + 1 })

end Sys2Proof.Machine
end

