-- ==== Sys2Proof/Machine/Flags.lean ====
section
/-! DEFINITION. The bits of the state as the observation map shows them (10_state.md R39): the codes
of R25 to R35, the packed words, and the element at each address. The block has no flags register of
its own (00_scope.md R11); R38's flags are the fields of State that the FLAGS word collects. -/

namespace Sys2Proof.Machine

/-! ## Codes -/

/-- R25: 0 NONE, 1 A, 2 B, 3 C. -/
def phaseCode : Option Phase → Nat
  | none => 0 | some .A => 1 | some .B => 2 | some .C => 3

/-- R25, R140: 0..5 for S0..S5, 7 for ALLOFF. -/
def csmCode : Csm → Nat
  | .step .S0 => 0 | .step .S1 => 1 | .step .S2 => 2 | .step .S3 => 3 | .step .S4 => 4 | .step .S5 => 5
  | .allOff => 7

/-- R31: 0 OFF, 1 HIGH, 2 LOW. -/
def swCode : SwState → Nat
  | .off => 0 | .high => 1 | .low => 2

/-- R27: 0 OFF, 1 NORMAL, 2 LONG, 3 FULL. -/
def pwmModeCode : PwmMode → Nat
  | .off => 0 | .normal => 1 | .long => 2 | .full => 3

/-- R26: 0 PRIMARY, 1 FOLLOWUP. -/
def zcWindowBit : ZcWindow → Bool
  | .primary => false | .followup => true

/-- R32: 0 Idle, 1 Starting, 2 Running, 3 Stalled, 4 Failed. -/
def supStateCode : SupState → Nat
  | .idle => 0 | .starting => 1 | .running => 2 | .stalled => 3 | .failed => 4

/-- R33, R220. -/
def seqPcCode : SeqPc → Nat
  | .idle => 0 | .commutate => 1 | .skipWait => 2 | .demagWait => 3 | .edgeFilter => 4
  | .commWait => 5 | .evaluate => 6 | .stallDelay => 7 | .failed => 8

/-- R88: the reason codes ILLEGAL_OPCODE 0, RESERVED_FIELD 1, OPERAND_RANGE 2, RESERVED_ADDRESS 3. -/
def refusalCode : PortRefusal → Nat
  | .illegalOpcode => 0 | .reservedField => 1 | .operandRange => 2 | .reservedAddress => 3

/-- 60_exceptions.md R250: the event codes. -/
def eventCode : Event → Nat
  | .none => 0x00
  | .zcTimeout => 0x01
  | .zcFollowup => 0x02
  | .demagTimeout => 0x03
  | .stall => 0x04
  | .startFailed => 0x05
  | .overspeedClamp => 0x06
  | .signalLoss => 0x07
  | .restart => 0x08
  | .powerCeilingZero => 0x09
  | .refused r => 0x10 + refusalCode r

/-! ## Packed words (R39; bits shown as 0 read as 0) -/

/-- The number whose bits are the list's, bit 0 first. -/
def packBits : List Bool → Nat
  | []      => 0
  | b :: bs => (if b then 1 else 0) + 2 * packBits bs

/-- Address 0x04. -/
def phasesWord (c : CommState) : Time :=
  toTime (phaseCode c.pwmPhase + 4 * phaseCode c.fixedPhase + 16 * phaseCode c.sensePhase
    + (if c.preLevel then 64 else 0))

/-- Address 0x05. -/
def swWord (w : Switches) : Time := toTime (swCode w.a + 4 * swCode w.b + 16 * swCode w.c)

/-- Address 0x06: the flags of R38 and R41, bit 0 first. -/
def flagsWord (s : State) : Time :=
  toTime (packBits [s.alarm.alarmPending, s.timing.fastPathEligible, s.duty.powerOnFlag,
    s.duty.fullPowerFlag, s.duty.dutyTracking, s.wave.pwmEnabled, s.wave.pwmSuppressed,
    s.wave.demagSkip, s.wave.wavePhase, s.wave.pwmOut, zcWindowBit s.zc.zcWindow, s.irq.cmpIrq,
    s.irq.ovfIrq, s.irq.pwmIrq, s.status.err])

/-- Address 0x07: the indicators of R30, bit 0 first. -/
def indWord (i : Indicators) : Time :=
  toTime (packBits [i.faultInd, i.disarmedInd, i.failInd, i.senseEnabled])

/-- The element at each address of the map, zero-extended to 24 bits (R39, 30_encoding.md R85). -/
def readReg (r : Reg) (s : State) : Time :=
  match r with
  | .PC           => toTime (seqPcCode s.seq.pc)
  | .STEPIDX      => toTime s.seq.stepInCycle.val
  | .SUPSTATE     => toTime (supStateCode s.start.supState)
  | .CSM          => toTime (csmCode s.comm.csm)
  | .PHASES       => phasesWord s.comm
  | .SW           => swWord s.sw
  | .FLAGS        => flagsWord s
  | .IND          => indWord s.ind
  | .PWMMODE      => toTime (pwmModeCode s.duty.pwmMode)
  | .NOW          => now s
  | .ALARMTGT     => toTime s.alarm.alarmDeadline
  | .LASTEDGE     => s.timing.lastEdge
  | .LASTLASTEDGE => s.timing.lastLastEdge
  | .INTERVAL     => s.timing.interval
  | .TIMINGLIMIT  => s.timing.timingDutyLimit.zeroExtend 24
  | .ZCCONF       => s.zc.conf.zeroExtend 24
  | .ZCWIDTH      => s.zc.width.zeroExtend 24
  | .ZCT0         => s.zc.zcT0
  | .CMDDUTY      => s.duty.commandedDuty.zeroExtend 24
  | .RATEDUTY     => s.duty.rateLimitedDuty.zeroExtend 24
  | .ONTIMEC      => s.duty.onTimeC.zeroExtend 24
  | .OFFTIMEC     => s.duty.offTimeC.zeroExtend 24
  | .RCTIMEOUT    => s.duty.rcTimeout.zeroExtend 24
  | .BEACON       => s.beaconCount.zeroExtend 24
  | .PWMRELOAD    => s.wave.pwmReload.zeroExtend 24
  | .PWMEXT       => s.wave.pwmExt.zeroExtend 24
  | .GOODIES      => s.start.goodies.zeroExtend 24
  | .STARTDELAY   => s.start.startDelay.zeroExtend 24
  | .STARTMOD     => s.start.startModulate.zeroExtend 24
  | .STARTFAIL    => s.start.startFail.zeroExtend 24
  | .POWERSKIP    => s.start.powerSkipCount.zeroExtend 24
  | .STALLCOUNT   => s.start.stallCount.zeroExtend 24
  | .LASTEVENT    => toTime (eventCode s.status.lastEvent)

end Sys2Proof.Machine
end

