-- ==== Sys2Proof/Machine/Ops.lean ====
section
/-! DEFINITION. The operations several instructions share: recording an event and refusing a word,
the power-stage outputs, arming the alarm, advancing the clock, the three interrupt handlers and the
one operation that takes an interrupt, and holding a word at the command port. -/

namespace Sys2Proof.Machine

/-! ## Status -/

/-- 60_exceptions.md R250: `raise Event(E)` writes `lastEvent` and changes nothing else. -/
def raise (e : Event) (s : State) : State := { s with status.lastEvent := e }

/-- 10_state.md R35: write the result register. -/
def setRes (v : Time) (s : State) : State := { s with status.res := v }

/-- 30_encoding.md R88: a refused word sets `err` and `lastEvent` and changes nothing else. -/
def refuseWord (r : PortRefusal) (s : State) : State :=
  { s with status.err := true, status.lastEvent := .refused r }

/-! ## Power stage (10_state.md R31) -/

/-- The output of one phase. -/
def Switches.get (w : Switches) : Phase → SwState
  | .A => w.a | .B => w.b | .C => w.c

/-- `sw[p] <- v`. -/
def Switches.set (w : Switches) (p : Phase) (v : SwState) : Switches :=
  match p with
  | .A => { w with a := v } | .B => { w with b := v } | .C => { w with c := v }

/-- `if p != NONE: sw[p] <- v`. -/
def Switches.setOpt (w : Switches) (p : Option Phase) (v : SwState) : Switches :=
  match p with
  | none => w
  | some q => w.set q v

/-- All three phases OFF (PhaseDriver `allOff()`). -/
def Switches.allOff : Switches := { a := .off, b := .off, c := .off }

/-- 42_commutation.md R144: the side of the PWM phase. -/
def sideP (c : Config) : SwState :=
  match c.PWM_SIDE with
  | .high => .high | .low => .low

/-- 42_commutation.md R144: the side of the fixed phase. -/
def sideF (c : Config) : SwState :=
  match c.PWM_SIDE with
  | .high => .low | .low => .high

/-- `if pwmPhase != NONE: sw[pwmPhase] <- v`. -/
def drivePwmPhase (v : SwState) (s : State) : State :=
  { s with sw := s.sw.setOpt s.comm.pwmPhase v }

/-! ## The alarm (40_timer_scheduler.md R104, R105) -/

/-- R104: `armAbsolute(targetTime)`. Re-arming drops the previous target and its request flag. -/
def armAbsolute (targetTime : Time) (s : State) : State :=
  let n := now s
  { s with
    irq.cmpIrq := false
    alarm :=
      if elapsed targetTime n then { alarmPending := false, alarmDeadline := s.tau }
      else { alarmPending := true, alarmDeadline := s.tau + (ahead targetTime n).toNat } }

/-- R105: `armRelative(delta)`. -/
def armRelative (delta : Time) (s : State) : State := armAbsolute (now s + delta) s

/-- R102: the environment advances the clock by n cycles and sets the request flags. -/
def advanceClock (n : Nat) (s : State) : State :=
  let t := s.tau + n
  { s with
    tau := t
    irq.cmpIrq := s.irq.cmpIrq || (s.alarm.alarmPending && decide (s.alarm.alarmDeadline ≤ t))
    irq.ovfIrq := s.irq.ovfIrq || decide (s.tau / 0x10000 < t / 0x10000) }

/-! ## Interrupts (60_exceptions.md R252 to R259) -/

/-- 44_duty_pwm.md R200: an end of a waveform phase, or a cycle of its extension. -/
def advanceWave (d : DutyState) (w : WaveState) : WaveState :=
  if w.pwmExt != 0 then { w with pwmExt := w.pwmExt - 1 }
  else if w.wavePhase then
    { w with wavePhase := false, pwmOut := false
             pwmReload := d.offTimeC.extractLsb' 0 8, pwmExt := (~~~d.offTimeC).extractLsb' 8 8 }
  else
    { w with wavePhase := true, pwmOut := true
             pwmReload := d.onTimeC.extractLsb' 0 8, pwmExt := (~~~d.onTimeC).extractLsb' 8 8 }

/-- 44_duty_pwm.md R200: the waveform after one PWM-cycle overflow, by mode. -/
def nextWave (d : DutyState) (w : WaveState) : WaveState :=
  match d.pwmMode with
  | .off    => { w with pwmOut := false }
  | .full   => { w with pwmOut := true }
  | .normal => advanceWave d w
  | .long   => advanceWave d w

/-- 44_duty_pwm.md R200: what the handler writes to the PWM phase's switch. -/
def waveDrive (s : State) : SwState :=
  if s.wave.pwmOut && !s.wave.pwmSuppressed && s.duty.powerOnFlag then sideP s.cfg else .off

/-- R257, 44_duty_pwm.md R200: the PWM-cycle overflow handler. -/
def pwmHandler (s : State) : State :=
  if s.wave.pwmEnabled then
    let s₁ := { s with wave := nextWave s.duty s.wave }
    drivePwmPhase (waveDrive s₁) s₁
  else s

/-- R255: the compare-match handler. -/
def compareHandler (s : State) : State := { s with alarm.alarmPending := false }

/-- R256: the timer-overflow handler. -/
def overflowHandler (s : State) : State :=
  { s with beaconCount := if s.beaconCount.toNat < 255 then s.beaconCount + 1 else s.beaconCount }

/-- Take the PWM interrupt: clear its request and run its handler to completion (R253). -/
def takePwm (s : State) : State := pwmHandler { s with irq.pwmIrq := false }
/-- Take the compare-match interrupt (R253). -/
def takeCmp (s : State) : State := compareHandler { s with irq.cmpIrq := false }
/-- Take the timer-overflow interrupt (R253). -/
def takeOvf (s : State) : State := overflowHandler { s with irq.ovfIrq := false }

/-- R253, R254: take the highest-priority pending interrupt, if any; the result tells whether one was
taken. Taking saves nothing and changes no mode (R258); the handler's return resumes the foreground at
the same boundary, since the foreground's state stays in place. -/
def takeIrq (s : State) : Bool × State :=
  if s.irq.pwmIrq then (true, takePwm s)
  else if s.irq.cmpIrq then (true, takeCmp s)
  else if s.irq.ovfIrq then (true, takeOvf s)
  else (false, s)

/-! ## The command port (30_encoding.md R75; 40_timer_scheduler.md R106) -/

/-- The word is an environment or interrupt event word (R87), which no wait of the foreground holds. -/
def isEventWord (w : CmdWord) : Bool :=
  match decode w with
  | .ok (.tick _) | .ok .pwmovf | .ok .takeirq | .ok .reset => true
  | _ => false

/-- The first event word of a list of presented words, and the list without it. -/
def takeEventWord : List CmdWord → Option (CmdWord × List CmdWord)
  | [] => none
  | w :: ws =>
    if isEventWord w then some (w, ws)
    else match takeEventWord ws with
      | some (e, rest) => some (e, w :: rest)
      | none => none

/-- Keep a held word at the port: the next event word is let past it, every other word waits. -/
def holdWord (w : CmdWord) (ws : List CmdWord) : List CmdWord :=
  match takeEventWord ws with
  | some (e, rest) => e :: w :: rest
  | none => w :: ws

/-- R106: the operation has no step now; its word stays presented (log entry 5). -/
def holdInstr (i : Instr) (s : State) : State :=
  { s with env.port := holdWord (encode i) s.env.port }

end Sys2Proof.Machine
end

