-- ==== Sys2Proof/Machine/Timer.lean ====
section
/-! DEFINITION. The TimerScheduler's operations and the clock advance (40_timer_scheduler.md R101 to
R106). -/

namespace Sys2Proof.Machine

/-- What an instruction answers. -/
abbrev Result := Host.Outcome State Fault Refusal

/-- ARMABS (R104). -/
def execArmabs (targetTime : Time) (s : State) : Result := .next (armAbsolute targetTime s)

/-- ARMREL (R105). -/
def execArmrel (delta : Time) (s : State) : Result := .next (armRelative delta s)

/-- WAITAL (R106): with no alarm pending the wait is over and changes nothing; with one pending the
operation has no step, and its word stays at the port (log entry 5). -/
def execWaital (s : State) : Result :=
  .next (if s.alarm.alarmPending then holdInstr .waital s else s)

/-- NOW (R101). -/
def execNow (s : State) : Result := .next (setRes (now s) s)

/-- TICK (R102, R77). -/
def execTick (cycles : Time) (s : State) : Result := .next (advanceClock cycles.toNat s)

end Sys2Proof.Machine
end

