-- ==== Sys2Proof/Machine/Predictor.lean ====
section
/-! DEFINITION. The TimingPredictor's operations (41_timing_predictor.md R120 to R125). -/

namespace Sys2Proof.Machine

/-- R120: the distance from the previous edge is below the safety governor's floor. -/
def overspeed (currentTime : Time) (s : State) : Bool :=
  decide ((currentTime - s.timing.lastEdge).toNat < s.cfg.MIN_INTERVAL.toNat)

/-- R120: the clamped distance between the two most recent edges. -/
def newInterval (currentTime : Time) (s : State) : Time :=
  if overspeed currentTime s then s.cfg.MIN_INTERVAL else currentTime - s.timing.lastEdge

/-- R120: a clamped edge halves the power ceiling and records the event. -/
def overspeedClamp (s : State) : State :=
  raise .overspeedClamp { s with duty.rateLimitedDuty := s.duty.rateLimitedDuty >>> 1 }

/-- R120: `recordEdge(currentTime)`. -/
def recordEdge (currentTime : Time) (s : State) : State :=
  let iv := newInterval currentTime s
  let s₁ := if overspeed currentTime s then overspeedClamp s else s
  { s₁ with
    timing.lastLastEdge := s.timing.lastEdge
    timing.lastEdge := currentTime
    timing.interval := iv
    timing.fastPathEligible := decide (iv.toNat < 0x10000) }

/-- R124: the current-limiting cap for an interval. -/
def timingDutyLimitOf (c : Config) (interval : Time) : Word16 :=
  if interval.toNat < Config.SPEED_THRESHOLD_INTERVAL.toNat then c.MAX_POWER
  else toWord16 (min (restoringDivide c.TIMING_LIMIT_NUM interval).toNat c.MAX_POWER.toNat)

/-- R124: `computeTimingDutyLimit`. -/
def computeTimingDutyLimit (s : State) : State :=
  { s with timing.timingDutyLimit := timingDutyLimitOf s.cfg s.timing.interval }

/-- RECEDGE (R120). -/
def execRecedge (currentTime : Time) (s : State) : Result := .next (recordEdge currentTime s)

/-- PREDICT (R122); an advance above 30, which no command word gives, is refused as R88(3) says. -/
def execPredict (advanceDegrees : Byte) (s : State) : Result :=
  .next (if advanceInRange advanceDegrees then setRes (predictNextCrossing s.timing advanceDegrees) s
         else refuseWord .operandRange s)

/-- DEG2T (R123). -/
def execDeg2t (baseInterval referenceTime : Time) (degrees : Byte) (s : State) : Result :=
  .next (setRes (degreesToTime baseInterval referenceTime degrees) s)

/-- TLIMIT (R124). -/
def execTlimit (s : State) : Result := .next (computeTimingDutyLimit s)

end Sys2Proof.Machine
end

