-- ==== Sys2Proof/Machine/Commutation.lean ====
section
/-! DEFINITION. The CommutationStateMachine (42_commutation.md R140 to R148). -/

namespace Sys2Proof.Machine

/-! ## The table of R140 -/

/-- R140: the high-side phase of a step. -/
def highPhase : CommStep → Phase
  | .S0 => .A | .S1 => .A | .S2 => .B | .S3 => .B | .S4 => .C | .S5 => .C

/-- R140: the low-side phase of a step. -/
def lowPhase : CommStep → Phase
  | .S0 => .B | .S1 => .C | .S2 => .C | .S3 => .A | .S4 => .A | .S5 => .B

/-- R140: the floating phase of a step, which is sensed. -/
def floatPhase : CommStep → Phase
  | .S0 => .C | .S1 => .B | .S2 => .A | .S3 => .C | .S4 => .B | .S5 => .A

/-- R140: the forward successor. -/
def succForward : CommStep → CommStep
  | .S0 => .S1 | .S1 => .S2 | .S2 => .S3 | .S3 => .S4 | .S4 => .S5 | .S5 => .S0

/-- R140: the reverse successor. -/
def succReverse : CommStep → CommStep
  | .S0 => .S5 | .S1 => .S0 | .S2 => .S1 | .S3 => .S2 | .S4 => .S3 | .S5 => .S4

/-- R141: the successor in the configured direction. -/
def successor (c : Config) (n : CommStep) : CommStep :=
  if c.REVERSE then succReverse n else succForward n

/-- R141, R142: the state a commutation comes from; from ALLOFF, the predecessor of S0. -/
def previousStep (c : Config) : Csm → CommStep
  | .step n => n
  | .allOff => if c.REVERSE then .S1 else .S5

/-- R141: the state a commutation enters; from ALLOFF, S0. -/
def enteredStep (c : Config) : Csm → CommStep
  | .step n => successor c n
  | .allOff => .S0

/-- R142: 1 when the sense phase of the new state was the high-side phase of the old one. -/
def preLevelOf (entered previous : CommStep) : Bool :=
  decide (floatPhase entered = highPhase previous)

/-- R144: the phase the waveform switches in a step. -/
def pwmPhaseOf (c : Config) (n : CommStep) : Phase :=
  match c.PWM_SIDE with
  | .high => highPhase n | .low => lowPhase n

/-- R144: the other driven phase. -/
def fixedPhaseOf (c : Config) (n : CommStep) : Phase :=
  match c.PWM_SIDE with
  | .high => lowPhase n | .low => highPhase n

/-! ## The parts of a commutation (R143, R146) -/

/-- R146(1): select the next sense phase and its pre-crossing level. -/
def selectSense (entered previous : CommStep) (s : State) : State :=
  { s with
    comm.sensePhase := some (floatPhase entered)
    comm.preLevel := preLevelOf entered previous }

/-- R143: the commutation applies power. -/
def commutationPowered (s : State) : Bool := !s.wave.demagSkip && s.duty.powerOnFlag

/-- R143: use up the demag skip, or end the suppression; an unpowered commutation clears goodies. -/
def settlePower (s : State) : State :=
  let s₁ := if s.wave.demagSkip then { s with wave.demagSkip := false }
            else { s with wave.pwmSuppressed := false }
  if commutationPowered s then s₁ else { s₁ with start.goodies := 0 }

/-- A switch of a phase that is no longer driven is opened:
`if old != NONE and old != new: sw[old] <- OFF`. -/
def floatOld (old : Option Phase) (new : Phase) (w : Switches) : Switches :=
  if old = some new then w else w.setOpt old .off

/-- R146(2): move the PWM phase, in the critical section. -/
def switchPwmPhase (newP : Phase) (powered : Bool) (s : State) : State :=
  let v := if powered && s.wave.pwmEnabled && s.wave.pwmOut && !s.wave.pwmSuppressed
           then sideP s.cfg else .off
  { s with
    sw := (floatOld s.comm.pwmPhase newP s.sw).set newP v
    comm.pwmPhase := some newP }

/-- R146(3): move the fixed phase, after the critical section. -/
def switchFixedPhase (newF : Phase) (powered : Bool) (s : State) : State :=
  { s with
    sw := (floatOld s.comm.fixedPhase newF s.sw).set newF (if powered then sideF s.cfg else .off)
    comm.fixedPhase := some newF }

/-- R146: `commutate`. -/
def commutate (s : State) : State :=
  let P := previousStep s.cfg s.comm.csm
  let N := enteredStep s.cfg s.comm.csm
  let powered := commutationPowered s
  let s₁ := settlePower (selectSense N P s)
  let s₂ := switchPwmPhase (pwmPhaseOf s.cfg N) powered s₁
  let s₃ := switchFixedPhase (fixedPhaseOf s.cfg N) powered s₂
  { s₃ with comm.csm := .step N }

/-- R148: `allOff`. -/
def allOff (s : State) : State :=
  { s with
    sw := Switches.allOff
    comm := { csm := .allOff, pwmPhase := none, fixedPhase := none, sensePhase := none
              preLevel := false } }

/-- COMMUT (R146). -/
def execCommut (s : State) : Result := .next (commutate s)

/-- ALLOFF (R148). -/
def execAlloff (s : State) : Result := .next (allOff s)

end Sys2Proof.Machine
end

