-- ==== Sys2Proof/Machine/Duty.lean ====
section
/-! DEFINITION. The DutyController (44_duty_pwm.md R190 to R195); the waveform it feeds is the PWM
handler of Ops.lean. -/

namespace Sys2Proof.Machine

/-- R191: signal loss, treated as a zero throttle. -/
def signalLost (s : State) : Bool := s.duty.rcTimeout == s.cfg.RC_TIMEOUT_CEIL

/-- R192: the throttle clamped by the timing limit and then by the power ceiling. -/
def clampedThrottle (s : State) : Nat :=
  let t := if signalLost s then 0 else s.duty.commandedDuty.toNat
  min (min t s.timing.timingDutyLimit.toNat) s.duty.rateLimitedDuty.toNat

/-- R194: the ceiling after the slow-throttle cap, which a zero clamped throttle does not apply. -/
def cappedCeiling (t : Nat) (ceiling : Word16) : Word16 :=
  if t != 0 then toWord16 (min ceiling.toNat (2 * max t Config.SLOW_THROTTLE_FLOOR.toNat)) else ceiling

/-- R192: what a recompute writes in its critical section: durations, mode and power flags. -/
structure DutyPlan where
  on    : Nat
  off   : Nat
  mode  : PwmMode
  full  : Bool
  power : Bool
deriving DecidableEq, Repr

/-- R193: the variant of a pair of durations. -/
def normalMode (on off : Nat) : PwmMode := if 255 < on || 255 < off then .long else .normal

/-- R192: the three cases; `double` is R195's condition. -/
def dutyPlan (maxPower : Nat) (double : Bool) (t : Nat) : DutyPlan :=
  let off := if maxPower ≤ t then 0 else maxPower - t
  if off = 0 then { on := t, off := 0, mode := .full, full := true, power := true }
  else if t = 0 then { on := 0, off := maxPower, mode := .off, full := false, power := false }
  else
    let on'  := if double then 2 * t else t
    let off' := if double then 2 * off else off
    { on := on', off := off', mode := normalMode on' off', full := false, power := true }

/-- R195: startup doubling applies. -/
def startupDoubling (s : State) : Bool :=
  s.cfg.STARTUP_PWM_DOUBLE && decide (s.start.supState = .starting)

/-- R192: the critical section. OFF and FULL act on the PWM phase at once. -/
def writePlan (p : DutyPlan) (s : State) : State :=
  let s₁ := { s with
    duty.onTimeC := ~~~(toWord16 p.on)
    duty.offTimeC := ~~~(toWord16 p.off)
    duty.pwmMode := p.mode
    duty.fullPowerFlag := p.full
    duty.powerOnFlag := p.power }
  match p.mode with
  | .off    => drivePwmPhase .off { s₁ with wave.pwmOut := false }
  | .full   =>
    let s₂ := { s₁ with wave.pwmOut := true }
    if s.wave.pwmEnabled && !s.wave.pwmSuppressed then drivePwmPhase (sideP s.cfg) s₂ else s₂
  | .normal => s₁
  | .long   => s₁

/-- R192: `recomputeDuty()`. -/
def recomputeDuty (s : State) : State :=
  let t := clampedThrottle s
  writePlan (dutyPlan s.cfg.MAX_POWER.toNat (startupDoubling s) t)
    { s with duty.rateLimitedDuty := cappedCeiling t s.duty.rateLimitedDuty }

/-- R190: the watchdog against signal loss, counting while duty tracking is off. -/
def countSignalLoss (s : State) : State :=
  let rc := if s.duty.rcTimeout.toNat < s.cfg.RC_TIMEOUT_CEIL.toNat then s.duty.rcTimeout + 1
            else s.duty.rcTimeout
  let s₁ := { s with duty.rcTimeout := rc }
  if rc = s.cfg.RC_TIMEOUT_CEIL then raise .signalLoss s₁ else s₁

/-- R190: an accepted throttle command. -/
def acceptThrottle (value : Word16) (s : State) : State :=
  recomputeDuty { s with
    duty.commandedDuty := toWord16 (min value.toNat (s.cfg.POWER_RANGE.toNat - 1))
    duty.rcTimeout := 0
    beaconCount := 0 }

/-- R190: `setThrottleCommand(value)`. -/
def setThrottleCommand (value : Word16) (s : State) : State :=
  if s.duty.dutyTracking then acceptThrottle value s else countSignalLoss s

/-- SETTHR (R190). -/
def execSetthr (value : Word16) (s : State) : Result := .next (setThrottleCommand value s)

/-- RECOMP (R192). -/
def execRecomp (s : State) : Result := .next (recomputeDuty s)

end Sys2Proof.Machine
end

