-- ==== Sys2Proof/Machine/ZeroCross.lean ====
section
/-! DEFINITION. The ZeroCrossWaitEngine (43_zero_cross.md R160 to R170). -/

namespace Sys2Proof.Machine

/-- R160: the target of the demagnetization window that begins at the time tc. -/
def demagWindowEnd (tc : Time) (s : State) : Time :=
  degreesToTime s.timing.interval tc s.cfg.DEMAG_DEGREES
    + toTime (s.start.startDelay.toNat * s.cfg.START_DELAY_UNIT.toNat)

/-- R160: `zcArm`. -/
def zcArm (s : State) : State :=
  let w := zcWidth s.cfg s.timing.interval
  armAbsolute (demagWindowEnd (now s) s)
    { s with zc := { conf := w, width := w, zcWindow := .primary, zcT0 := now s } }

/-- The outcome of one poll (R162, R163): 0 WAIT, 1 DONE or CONFIRMED, 2 TIMEOUT. -/
inductive Poll where
  | wait | done | timeout
deriving DecidableEq, Repr

/-- The code of a poll's outcome in `res` (R162, R163). -/
def pollCode : Poll → Time
  | .wait => 0 | .done => 1 | .timeout => 2

/-- R162: `demagPoll`: the alarm and one sample, read together; the alarm is tested first. -/
def demagPoll (s : State) : Poll × State :=
  let sample := (drawCmp s.env).1
  let s₁ := { s with env := (drawCmp s.env).2 }
  if !s.alarm.alarmPending then (.timeout, s₁)
  else if sample = s.comm.preLevel then
    (.done, armAbsolute (degreesToTime s.timing.interval s.zc.zcT0 s.cfg.ZC_TIMEOUT_DEGREES) s₁)
  else (.wait, s₁)

/-- R163: `edgePoll`: the alarm and one sample, read together; the alarm is tested first. -/
def edgePoll (s : State) : Poll × State :=
  let sample := (drawCmp s.env).1
  let s₁ := { s with env := (drawCmp s.env).2 }
  if !s.alarm.alarmPending then (.timeout, s₁)
  else if sample = s.comm.preLevel then
    (.wait, { s₁ with zc.conf := toByte (min (s.zc.conf.toNat + 1) s.zc.width.toNat) })
  else
    let conf := toByte (s.zc.conf.toNat - 1)
    (if conf = 0 then .done else .wait, { s₁ with zc.conf := conf })

/-- R169: `feedback(t)`. -/
def feedback (t : Time) (s : State) : State :=
  recomputeDuty (computeTimingDutyLimit (recordEdge t s))

/-- R164: `confirm`. -/
def confirm (s : State) : State :=
  let s₁ := feedback (now s) s
  armAbsolute (predictNextCrossing s₁.timing s.cfg.ADVANCE_DEGREES) s₁

/-- R165: `demagTimeout`. -/
def demagTimeout (s : State) : State :=
  raise .demagTimeout (drivePwmPhase .off
    { s with wave.pwmSuppressed := true, wave.demagSkip := true, start.goodies := 0 })

/-- The outcome of an edge timeout (R166): 3 a follow-up window, 4 the step is over. -/
inductive ZcOutcome where
  | followup | final
deriving DecidableEq, Repr

/-- The code of an edge timeout's outcome in `res` (R166). -/
def zcOutcomeCode : ZcOutcome → Time
  | .followup => 3 | .final => 4

/-- R166: the primary window ended while a crossing was in progress. -/
def crossingInProgress (s : State) : Bool :=
  decide (s.zc.zcWindow = .primary) && decide (s.zc.conf.toNat < s.zc.width.toNat)

/-- R166: clip the confidence window and arm the follow-up window. -/
def openFollowup (s : State) : State :=
  raise .zcFollowup (armAbsolute (degreesToTime s.timing.interval (now s) s.cfg.FOLLOWUP_DEGREES)
    { s with zc.width := s.zc.conf, zc.zcWindow := .followup })

/-- R166: the final timeout: the fault indicator while Running, then the starting-timeout behaviour. -/
def finalTimeout (s : State) : State :=
  raise .zcTimeout { s with
    ind.faultInd := s.ind.faultInd || decide (s.start.supState = .running)
    start.goodies := 0
    start.startDelay := toByte (min (s.start.startDelay.toNat + s.cfg.START_DELAY_INC.toNat) 255)
    zc.zcWindow := .primary }

/-- R166: `zcTimeout`. -/
def zcTimeout (s : State) : ZcOutcome × State :=
  if crossingInProgress s then (.followup, openFollowup s) else (.final, finalTimeout s)

/-- R167: `skipArm`. -/
def skipArm (s : State) : State :=
  armRelative s.cfg.SKIP_TIMEOUT
    { s with start.powerSkipCount := toByte (s.start.powerSkipCount.toNat - 1) }

/-- ZCARM (R160). -/
def execZcarm (s : State) : Result := .next (zcArm s)

/-- DEMAGP (R162). -/
def execDemagp (s : State) : Result := .next (setRes (pollCode (demagPoll s).1) (demagPoll s).2)

/-- EDGEP (R163). -/
def execEdgep (s : State) : Result := .next (setRes (pollCode (edgePoll s).1) (edgePoll s).2)

/-- CONFIRM (R164). -/
def execConfirm (s : State) : Result := .next (confirm s)

/-- DEMAGTO (R165). -/
def execDemagto (s : State) : Result := .next (demagTimeout s)

/-- ZCTO (R166). -/
def execZcto (s : State) : Result := .next (setRes (zcOutcomeCode (zcTimeout s).1) (zcTimeout s).2)

/-- SKIPARM (R167). -/
def execSkiparm (s : State) : Result := .next (skipArm s)

/-- FEEDBK (R169): `feedback(now())`. -/
def execFeedbk (s : State) : Result := .next (feedback (now s) s)

end Sys2Proof.Machine
end

