-- ==== Sys2Proof/Machine/Supervisor.lean ====
section
/-! DEFINITION. The StartupSupervisor and the foreground sequencer (45_supervisor.md R220 to R228). -/

namespace Sys2Proof.Machine

/-! ## Supervisor operations -/

/-- R224: `startFromRunning()`. -/
def startFromRunning (s : State) : State :=
  let s₁ := recomputeDuty { s with
    start := { goodies := 0, startDelay := 0, startModulate := 0, startFail := 0
               powerSkipCount := s.cfg.POWER_SKIP_INIT, stallCount := 0, supState := .starting }
    ind.senseEnabled := true
    ind.disarmedInd := false
    duty.rateLimitedDuty := s.cfg.PWR_MIN_START
    duty.dutyTracking := true
    wave.pwmEnabled := true }
  { s₁ with seq := { pc := .commutate, stepInCycle := 0 } }

/-- R223: what restartControl does before it starts again: everything off, disarmed, Idle. -/
def disarm (s : State) : State :=
  let s₁ := allOff s
  raise .restart { s₁ with
    duty.dutyTracking := false
    wave.pwmEnabled := false
    duty.commandedDuty := 0
    ind.disarmedInd := true
    ind.faultInd := false
    ind.senseEnabled := false
    start.supState := .idle }

/-- R223: `restartControl()`. -/
def restartControl (s : State) : State := startFromRunning (disarm s)

/-- R227: `startFailed()`. -/
def startFailed (s : State) : State :=
  let s₁ := allOff s
  raise .startFailed { s₁ with
    wave.pwmEnabled := false
    duty.dutyTracking := false
    ind.senseEnabled := false
    start.supState := .failed
    seq.pc := .failed }

/-- R225(1): stalled: unpowered and no good commutation. -/
def enterStall (s : State) : State :=
  let s₁ := armRelative s.cfg.STALL_DELTA
    { s with start.supState := .stalled, start.stallCount := s.cfg.STALL_REPEATS }
  raise .stall { s₁ with seq.pc := .stallDelay }

/-- R225(2): the running ramp. -/
def runningRamp (s : State) : State :=
  let s₁ := recomputeDuty { s with
    start.startDelay := 0
    start.startModulate := 0
    start.startFail := 0
    start.supState := .running
    duty.rateLimitedDuty :=
      toWord16 (min (s.duty.rateLimitedDuty.toNat + s.cfg.RUN_RAMP_STEP.toNat) s.cfg.MAX_POWER.toNat) }
  { s₁ with seq.pc := .commutate }

/-- R225(4): the starting counters, each stepped once. -/
def countStart (s : State) : State :=
  { s with
    start.goodies := toByte (min (s.start.goodies.toNat + 1) 255)
    start.startModulate := s.start.startModulate + s.cfg.START_MOD_INC
    start.startFail := s.start.startFail + s.cfg.START_FAIL_INC }

/-- R225(4): full starting power, or the cool one once the modulation counter has progressed. -/
def startingCap (c : Config) (startModulate : Byte) : Word16 :=
  if startModulate.toNat < c.START_MOD_LIMIT.toNat then c.PWR_MAX_START else c.PWR_COOL_START

/-- R225(4): the starting ramp toward the starting cap. -/
def startingRamp (s : State) : State :=
  let s₁ := recomputeDuty { s with
    start.supState := .starting
    duty.rateLimitedDuty :=
      toWord16 (min (s.duty.rateLimitedDuty.toNat + s.cfg.START_RAMP_STEP.toNat)
                 (startingCap s.cfg s.start.startModulate).toNat) }
  { s₁ with seq.pc := .commutate }

/-- R225(4): count, then fail when both counters wrap to zero together, else ramp. -/
def startingBranch (s : State) : State :=
  let s₁ := countStart s
  if s₁.start.startModulate = 0 ∧ s₁.start.startFail = 0 then startFailed s₁ else startingRamp s₁

/-- R225: `supervisorEvaluate()`, its branches in the rule's order. -/
def supervisorEvaluate (s : State) : State :=
  if s.duty.powerOnFlag = false ∧ s.start.goodies = 0 then enterStall s
  else if s.cfg.ENOUGH_GOODIES.toNat ≤ s.start.goodies.toNat then runningRamp s
  else if s.duty.rateLimitedDuty = 0 then startFromRunning (raise .powerCeilingZero s)
  else startingBranch s

/-! ## The foreground sequencer -/

/-- R222: the step index after a completed step; `none` when the six-step cycle is complete. -/
def nextStepInCycle (k : Fin 6) : Option (Fin 6) :=
  if h : k.val + 1 < 6 then some ⟨k.val + 1, h⟩ else none

/-- R222: `stepDone()`. -/
def stepDone (s : State) : State :=
  match nextStepInCycle s.seq.stepInCycle with
  | some k => { s with seq := { pc := .commutate, stepInCycle := k } }
  | none   => { s with seq := { pc := .evaluate, stepInCycle := 0 } }

/-- R221: the micro-step is not enabled: a wait whose alarm is pending. -/
def stepHeld (s : State) : Bool :=
  s.alarm.alarmPending &&
    match s.seq.pc with
    | .skipWait | .commWait | .stallDelay => true
    | .idle | .commutate | .demagWait | .edgeFilter | .evaluate | .failed => false

/-- R221 COMMUTATE: commutate, then arm an open-loop step or the demagnetization window. -/
def stepCommutate (s : State) : State :=
  let s₁ := commutate s
  if s₁.start.powerSkipCount != 0 then { skipArm s₁ with seq.pc := .skipWait }
  else { zcArm s₁ with seq.pc := .demagWait }

/-- R221 SKIP_WAIT, once the alarm has elapsed. -/
def stepSkipWait (s : State) : State := stepDone (feedback (now s) s)

/-- R221 DEMAG_WAIT: one poll. -/
def stepDemagWait (s : State) : State :=
  let s₁ := (demagPoll s).2
  match (demagPoll s).1 with
  | .done    => { s₁ with seq.pc := .edgeFilter }
  | .timeout => stepDone (feedback (now s₁) (demagTimeout s₁))
  | .wait    => s₁

/-- R221 EDGE_FILTER on a timeout: a follow-up window stays, a final timeout ends the step. -/
def stepEdgeTimeout (s : State) : State :=
  let s₁ := (zcTimeout s).2
  match (zcTimeout s).1 with
  | .followup => s₁
  | .final    => stepDone (feedback (now s₁) s₁)

/-- R221 EDGE_FILTER: one poll. -/
def stepEdgeFilter (s : State) : State :=
  let s₁ := (edgePoll s).2
  match (edgePoll s).1 with
  | .done    => { confirm s₁ with seq.pc := .commWait }
  | .timeout => stepEdgeTimeout s₁
  | .wait    => s₁

/-- R221 STALL_DELAY, once the alarm has elapsed. -/
def stepStallDelay (s : State) : State :=
  let s₁ := { s with start.stallCount := s.start.stallCount - 1 }
  if s₁.start.stallCount = 0 then restartControl s₁ else armRelative s.cfg.STALL_DELTA s₁

/-- R228: the FAILED micro-step toggles the failure indicator. -/
def stepFailed (s : State) : State := { s with ind.failInd := !s.ind.failInd }

/-- R221: the arm of the present sequencer state. -/
def sequencerStep (s : State) : State :=
  match s.seq.pc with
  | .idle       => restartControl s
  | .commutate  => stepCommutate s
  | .skipWait   => stepSkipWait s
  | .demagWait  => stepDemagWait s
  | .edgeFilter => stepEdgeFilter s
  | .commWait   => stepDone s
  | .evaluate   => supervisorEvaluate s
  | .stallDelay => stepStallDelay s
  | .failed     => stepFailed s

/-- R221: one foreground micro-step: held, it changes nothing but `res <- 0`; performed, it ends with
`res <- 1`. -/
def microStep (s : State) : State :=
  if stepHeld s then setRes 0 s else setRes 1 (sequencerStep s)

/-- RESTART (R223). -/
def execRestart (s : State) : Result := .next (restartControl s)

/-- STARTFR (R224). -/
def execStartfr (s : State) : Result := .next (startFromRunning s)

/-- EVAL (R225). -/
def execEval (s : State) : Result := .next (supervisorEvaluate s)

/-- FAILED (R227). -/
def execFailed (s : State) : Result := .next (startFailed s)

/-- STEP (R221). -/
def execStep (s : State) : Result := .next (microStep s)

end Sys2Proof.Machine
end

