-- ==== Sys2Proof/Machine/Platform.lean ====
section
/-! DEFINITION. The observation map, the environment's PWM event, the interrupt unit and reset
(30_encoding.md R85, R87; 60_exceptions.md R253, R257; 70_reset_and_hazards.md R280). -/

namespace Sys2Proof.Machine

/-- R280: reset: every element at its reset value, the clock a draw; the configuration and what the
other agents have pending stay. -/
def resetBlock (s : State) : State :=
  State.resetWith s.config (drawTau s.env).1 (drawTau s.env).2

/-- RDREG (R85); a reserved address has no `Reg`, so its word is refused at the port (R88(4)). -/
def execRdreg (reg : Reg) (s : State) : Result := .next (setRes (readReg reg s) s)

/-- PWMOVF (R257): the environment's PWM counter overflowed. -/
def execPwmovf (s : State) : Result := .next { s with irq.pwmIrq := true }

/-- TAKEIRQ (R253): take a pending interrupt; `res` tells whether one was taken. -/
def execTakeirq (s : State) : Result :=
  .next (setRes (if (takeIrq s).1 then 1 else 0) (takeIrq s).2)

/-- RESET (R280). -/
def execReset (s : State) : Result := .next (resetBlock s)

end Sys2Proof.Machine
end

