-- ==== Sys2Proof/Machine/Port.lean ====
section
/-! DEFINITION. Taking the next command word from the port (30_encoding.md R75, R88). -/

namespace Sys2Proof.Machine

/-- What stands at the command port: nothing, a word that is refused, or an operation; with the state
after the word is taken from the port. -/
inductive Presented where
  | idle
  | refused (r : PortRefusal) (s : State)
  | run (i : Instr) (s : State)
deriving DecidableEq, Repr

/-- R75, R88: take and decode the word the host presents. -/
def nextWord (s : State) : Presented :=
  match s.env.port with
  | [] => .idle
  | w :: rest =>
    let s₁ := { s with env.port := rest }
    match decode w with
    | .ok i    => .run i s₁
    | .error r => .refused r s₁

/-- The word stands at the port as the next one; the words already presented wait behind it. -/
def presentWord (w : CmdWord) (s : State) : State := { s with env.port := w :: s.env.port }

end Sys2Proof.Machine
end

