-- ==== Sys2Proof/Machine/Dispatch.lean ====
section
/-! DEFINITION. One arm per operation of the command port (30_encoding.md R79, R87). -/

namespace Sys2Proof.Machine

def exec (i : Instr) (s : State) : Host.Outcome State Fault Refusal :=
  match i with
  | .armabs targetTime => Sys2Proof.Machine.execArmabs targetTime s
  | .armrel delta => Sys2Proof.Machine.execArmrel delta s
  | .waital => Sys2Proof.Machine.execWaital s
  | .now => Sys2Proof.Machine.execNow s
  | .recedge currentTime => Sys2Proof.Machine.execRecedge currentTime s
  | .predict advanceDegrees => Sys2Proof.Machine.execPredict advanceDegrees s
  | .deg2t baseInterval referenceTime degrees => Sys2Proof.Machine.execDeg2t baseInterval referenceTime degrees s
  | .tlimit => Sys2Proof.Machine.execTlimit s
  | .commut => Sys2Proof.Machine.execCommut s
  | .alloff => Sys2Proof.Machine.execAlloff s
  | .zcarm => Sys2Proof.Machine.execZcarm s
  | .demagp => Sys2Proof.Machine.execDemagp s
  | .edgep => Sys2Proof.Machine.execEdgep s
  | .confirm => Sys2Proof.Machine.execConfirm s
  | .demagto => Sys2Proof.Machine.execDemagto s
  | .zcto => Sys2Proof.Machine.execZcto s
  | .skiparm => Sys2Proof.Machine.execSkiparm s
  | .feedbk => Sys2Proof.Machine.execFeedbk s
  | .setthr value => Sys2Proof.Machine.execSetthr value s
  | .recomp => Sys2Proof.Machine.execRecomp s
  | .restart => Sys2Proof.Machine.execRestart s
  | .startfr => Sys2Proof.Machine.execStartfr s
  | .eval => Sys2Proof.Machine.execEval s
  | .failed => Sys2Proof.Machine.execFailed s
  | .step => Sys2Proof.Machine.execStep s
  | .rdreg reg => Sys2Proof.Machine.execRdreg reg s
  | .tick cycles => Sys2Proof.Machine.execTick cycles s
  | .pwmovf => Sys2Proof.Machine.execPwmovf s
  | .takeirq => Sys2Proof.Machine.execTakeirq s
  | .reset => Sys2Proof.Machine.execReset s

end Sys2Proof.Machine
end

