-- ==== Sys2Proof/Machine/Step.lean ====
section
/-! DEFINITION. One step of the machine: the next command word is taken from the port and refused or
performed as one atomic transition (30_encoding.md R75; 20_memory.md R64). Each of the four agents of
10_state.md R20 takes its steps through its own words (STEP; TAKEIRQ; TICK and PWMOVF; SETTHR, RESET
and the test operations), and the order of the words is the schedule (log entry 4). -/

namespace Sys2Proof.Machine

/-- One step. With no word presented nothing happens (log entry 4). -/
def step (s : State) : Host.Outcome State Fault Refusal :=
  match nextWord s with
  | .idle         => .next s
  | .refused r s₁ => .next (refuseWord r s₁)
  | .run i s₁     => exec i s₁

/-- The word w, as a number, stands at the command port as the next word. A word is 64 bits whatever
nbits is; the bits above nbits are zero. -/
def State.withFetchWord (s : State) (nbits w : Nat) : State :=
  presentWord (BitVec.ofNat 64 (w % 2 ^ nbits)) s

end Sys2Proof.Machine
end

