-- ==== Sys2Proof/Machine/Assembler.lean ====
section
/-! DEFINITION. The assembler syntax and the pseudo-instructions of the command port (30_encoding.md
R90, R91). Neither is part of a step: a line becomes a command word, a pseudo-instruction a list of
operations. -/

namespace Sys2Proof.Machine

/-! ## Mnemonics (R79, R87) -/

/-- The mnemonic of an operation. -/
def mnemonic : Op → String
  | .armabs => "ARMABS" | .armrel => "ARMREL" | .waital => "WAITAL" | .now => "NOW"
  | .recedge => "RECEDGE" | .predict => "PREDICT" | .deg2t => "DEG2T" | .tlimit => "TLIMIT"
  | .commut => "COMMUT" | .alloff => "ALLOFF"
  | .zcarm => "ZCARM" | .demagp => "DEMAGP" | .edgep => "EDGEP" | .confirm => "CONFIRM"
  | .demagto => "DEMAGTO" | .zcto => "ZCTO" | .skiparm => "SKIPARM" | .feedbk => "FEEDBK"
  | .setthr => "SETTHR" | .recomp => "RECOMP"
  | .restart => "RESTART" | .startfr => "STARTFR" | .eval => "EVAL" | .failed => "FAILED"
  | .step => "STEP" | .rdreg => "RDREG"
  | .tick => "TICK" | .pwmovf => "PWMOVF" | .takeirq => "TAKEIRQ" | .reset => "RESET"

/-- The operation of a mnemonic. -/
def opOfMnemonic (m : List Char) : Option Op := allOps.find? fun o => (mnemonic o).toList == m

/-! ## Lines (R90) -/

/-- The value of a hexadecimal digit. -/
def hexDigit? (c : Char) : Option Nat :=
  let n := c.toNat
  if 48 ≤ n && n ≤ 57 then some (n - 48)
  else if 65 ≤ n && n ≤ 70 then some (n - 55)
  else if 97 ≤ n && n ≤ 102 then some (n - 87)
  else none

/-- The digits of a number in a base, after the value so far. -/
def digits? (base : Nat) : Nat → List Char → Option Nat
  | acc, [] => some acc
  | acc, c :: cs =>
    match hexDigit? c with
    | some d => if d < base then digits? base (acc * base + d) cs else none
    | none   => none

/-- A number, decimal or `0x` hexadecimal. -/
def number? : List Char → Option Nat
  | '0' :: 'x' :: c :: cs => digits? 16 0 (c :: cs)
  | c :: cs               => digits? 10 0 (c :: cs)
  | []                    => none

/-- The characters without blanks. DESIGN CHOICE: this drops blanks inside a number too, so the line
`ARMABS 1 2` is `ARMABS 12`; R90 gives no rule for such a line (log entry 12). -/
def withoutBlanks (cs : List Char) : List Char := cs.filter fun c => c != ' ' && c != '\t'

/-- The operands between commas. -/
def splitCommas : List Char → List (List Char)
  | [] => [[]]
  | c :: cs =>
    if c == ',' then [] :: splitCommas cs
    else match splitCommas cs with
      | o :: os => (c :: o) :: os
      | []      => [[c]]

/-- The operand of a field the operation takes, from the operands not used yet; 0 where it takes none.
A number that does not fit the field's width is no operand. -/
def takeOperand (taken : Bool) (width : Nat) : List (List Char) → Option (Nat × List (List Char))
  | ops =>
    if taken then
      match ops with
      | o :: rest =>
        match number? o with
        | some n => if n < 2 ^ width then some (n, rest) else none
        | none   => none
      | [] => none
    else some (0, ops)

/-- The word of an operation with its operands in the order X, Y, B. -/
def wordOf (r : OpRow) (ops : List (List Char)) : Option CmdWord :=
  match takeOperand (r.xBits != 0) 24 ops with
  | none => none
  | some (x, ops₁) =>
    match takeOperand (r.yBits != 0) 24 ops₁ with
    | none => none
    | some (y, ops₂) =>
      match takeOperand (r.bBits != 0) 8 ops₂ with
      | some (b, []) => some (packWord r.code (toByte b) (toTime y) (toTime x))
      | _            => none

/-- What a line stands for. -/
inductive AsmLine where
  | blank
  | word (w : CmdWord)
  | malformed
deriving DecidableEq, Repr

/-- R90: one line: a mnemonic, then its operands separated by commas; `;` starts a comment. -/
def assembleLine (line : String) : AsmLine :=
  let code := ((line.toList.takeWhile fun c => c != ';').dropWhile fun c => c == ' ' || c == '\t')
  let name := code.takeWhile fun c => c != ' ' && c != '\t'
  let tail := withoutBlanks (code.dropWhile fun c => c != ' ' && c != '\t')
  if name.isEmpty then .blank
  else match opOfMnemonic name with
    | none => .malformed
    | some o =>
      match wordOf (opRow o) (if tail.isEmpty then [] else splitCommas tail) with
      | some w => .word w
      | none   => .malformed

/-- A hexadecimal digit's character. -/
def hexChar (n : Nat) : Char := Char.ofNat (if n < 10 then 48 + n else 55 + n)

/-- R90: a word as 16 hexadecimal digits, the most significant first. -/
def hexWord (w : CmdWord) : List Char :=
  (List.range 16).map fun i => hexChar (w.toNat / 16 ^ (15 - i) % 16)

/-! ## Pseudo-instructions (R91) -/

/-- R91: `STEPN n`. -/
def stepn (n : Nat) : List Instr := List.replicate n .step

/-- The number of request flags set. -/
def pendingRequests (f : IrqFlags) : Nat :=
  (if f.pwmIrq then 1 else 0) + (if f.cmpIrq then 1 else 0) + (if f.ovfIrq then 1 else 0)

/-- R91: `WAITT n` in a state: `TICK n`, then TAKEIRQ until no request flag is set; each one clears
one flag and no handler sets one. DESIGN CHOICE: the flags are tested before each TAKEIRQ, so none is
issued when no flag is set after the TICK; R91 does not say (log entry 13). -/
def waitt (n : Time) (s : State) : List Instr :=
  .tick n :: List.replicate (pendingRequests (advanceClock n.toNat s).irq) .takeirq

/-- R91: `RUNTO cond` in a state: the STEPs until cond holds, if it does within the bound (the block
sets none). DESIGN CHOICE: cond is tested before each STEP, so none is made when cond already holds;
R91 does not say (log entry 13). -/
def runto (cond : State → Bool) : Nat → State → Option (List Instr)
  | bound, s =>
    if cond s then some []
    else match bound with
      | 0 => none
      | k + 1 =>
        match runto cond k (microStep s) with
        | some l => some (.step :: l)
        | none   => none

end Sys2Proof.Machine
end

