-- ==== Sys2Proof/Machine/Realisation.lean ====
section
/-! DEFINITION. The spec's realisation of the abstract clock, alarm and PWM phases by 16-bit and 8-bit
hardware (40_timer_scheduler.md R108, R109; 60_exceptions.md R255, R256; 44_duty_pwm.md R201). The
machine itself is at the level of R101, where none of this is separate state (R256); these definitions
are what the statements about the realisation compare it with. -/

namespace Sys2Proof.Machine

/-! ## The clock (R108) -/

/-- The 16-bit counter, its software-extended high byte and the overflow request flag (R108). -/
structure HwClock where
  tcnt  : Word16
  tcntx : Byte
  ovf   : Bool
deriving DecidableEq, Repr

/-- R108: the high byte as of the read of the low word: one more when a wrap before the read has not
been counted yet. -/
def correctedHigh (h : HwClock) : Byte :=
  if h.ovf && decide (h.tcnt.toNat < 0x8000) then h.tcntx + 1 else h.tcntx

/-- R108: the corrected read. -/
def correctedRead (h : HwClock) : Time := correctedHigh h ++ h.tcnt

/-- The counter runs for n cycles; a wrap sets the request flag (R102, R108). -/
def hwAdvance (n : Nat) (h : HwClock) : HwClock :=
  { h with tcnt := h.tcnt + toWord16 n, ovf := h.ovf || decide (0x10000 ≤ h.tcnt.toNat + n) }

/-- R256: the timer-overflow handler's part of the realisation. -/
def hwTakeOverflow (h : HwClock) : HwClock := { h with tcntx := h.tcntx + 1, ovf := false }

/-- The registers stand for the clock tau: the counter is its low word, and the high byte lags by the
one wrap whose request is pending. -/
def clockRepresents (h : HwClock) (tau : Nat) : Bool :=
  decide (h.tcnt.toNat = tau % 0x10000) &&
  decide ((h.tcntx.toNat + if h.ovf then 1 else 0) % 0x100 = tau / 0x10000 % 0x100)

/-! ## The alarm (R109, R255) -/

/-- The 16-bit compare register, the count of matches still to ignore, and the pending flag (R109). -/
structure HwAlarm where
  compareReg : Word16
  alarmExt   : Byte
  pending    : Bool
deriving DecidableEq, Repr

/-- R109: arm a target that lies ahead of the time n. -/
def hwArm (target n : Time) : HwAlarm where
  compareReg := target.extractLsb' 0 16
  alarmExt := toByte (((ahead target n).toNat - 1) / 0x10000)
  pending := true

/-- R109, R255: the handler at a compare match. -/
def hwMatch (a : HwAlarm) : HwAlarm :=
  if a.alarmExt != 0 then { a with alarmExt := a.alarmExt - 1 } else { a with pending := false }

/-- The alarm after k cycles from the time tau, the handler running at each compare match. -/
def hwAlarmRun (tau : Nat) (a : HwAlarm) : Nat → HwAlarm
  | 0 => a
  | k + 1 =>
    let b := hwAlarmRun tau a k
    if (tau + (k + 1)) % 0x10000 = b.compareReg.toNat then hwMatch b else b

/-! ## The length of a PWM phase (R201, informative) -/

/-- R201: the counter ticks of a waveform phase, for an 8-bit up-counter that overflows at 256 and is
loaded with the reload value when the phase begins, and runs a full period per extension cycle. -/
def phaseTicks (w : WaveState) : Nat := (256 - w.pwmReload.toNat) + 256 * w.pwmExt.toNat

end Sys2Proof.Machine
end

