-- ==== Sys2Proof/Safety.lean ====
section
/-! DEFINITION. What counts as a safe state and a safe run, in the terms the statements use:
the driver invariant of 42_commutation.md R147, the state invariants of 10_state.md R42, and the
values a run of the block's own sequencer keeps. -/

namespace Sys2Proof.Machine

/-- R31, R147: at most one phase is HIGH and at most one is LOW. (No phase has both switches on: a
phase holds one `SwState`.) -/
def DriverSafe (w : Switches) : Prop :=
  (∀ p q, w.get p = .high → w.get q = .high → p = q) ∧
  (∀ p q, w.get p = .low → w.get q = .low → p = q)

/-- R42(1), (2): the three phases are those of the present commutation state, or NONE in ALLOFF. -/
def PhasesMatch (s : State) : Prop :=
  match s.comm.csm with
  | .allOff => s.comm.pwmPhase = none ∧ s.comm.fixedPhase = none ∧ s.comm.sensePhase = none
  | .step n => s.comm.pwmPhase = some (pwmPhaseOf s.cfg n) ∧
               s.comm.fixedPhase = some (fixedPhaseOf s.cfg n) ∧
               s.comm.sensePhase = some (floatPhase n)

/-- R147: a switch that is on is the PWM phase's at its side, or the fixed phase's at its side. -/
def SwitchesMatch (s : State) : Prop :=
  ∀ p, s.sw.get p = .off ∨
    (s.comm.pwmPhase = some p ∧ s.sw.get p = sideP s.cfg) ∨
    (s.comm.fixedPhase = some p ∧ s.sw.get p = sideF s.cfg)

/-- The invariant every step keeps: R42(1) to (4), (6), (7), the bound `conf <= width` of R42(5) in
every sequencer state, and the bounds R192 derives for the timing limit and the ceiling.
R42(8) holds by the type of `stepInCycle`. -/
structure Inv (s : State) : Prop where
  phases    : PhasesMatch s
  switches  : SwitchesMatch s
  conf      : s.zc.conf.toNat ≤ s.zc.width.toNat
  rcTimeout : s.duty.rcTimeout.toNat ≤ s.cfg.RC_TIMEOUT_CEIL.toNat
  commanded : s.duty.commandedDuty.toNat ≤ s.cfg.POWER_RANGE.toNat - 1
  limit     : s.timing.timingDutyLimit.toNat ≤ s.cfg.MAX_POWER.toNat
  ceiling   : s.duty.rateLimitedDuty.toNat ≤ s.cfg.MAX_POWER.toNat

/-- R42(5): while the sequencer is in DEMAG_WAIT or EDGE_FILTER, `1 <= conf <= width`; and the stall
delay has an alarm left to wait for while the sequencer is in STALL_DELAY (R221). -/
structure DetectorInv (s : State) : Prop where
  confLe  : s.seq.pc = .demagWait ∨ s.seq.pc = .edgeFilter → s.zc.conf.toNat ≤ s.zc.width.toNat
  confPos : s.seq.pc = .demagWait ∨ s.seq.pc = .edgeFilter → 1 ≤ s.zc.conf.toNat
  stall   : s.seq.pc = .stallDelay → 1 ≤ s.start.stallCount.toNat

/-- A state in which the power stage is safe: the driver invariant, and nothing drives the sensed
phase (R42(3), R147). -/
def SafeState (s : State) : Prop :=
  DriverSafe s.sw ∧ ∀ p, s.comm.sensePhase = some p → s.sw.get p = .off

/-- A run of k steps from s that never stops and ends in t. -/
def Runs : Nat → State → State → Prop
  | 0, s, t => s = t
  | k + 1, s, t => ∃ m, step s = .next m ∧ Runs k m t

/-- A safe run: every state it passes is safe. -/
def SafeRun (k : Nat) (s : State) : Prop := ∀ j, j ≤ k → ∃ t, Runs j s t ∧ SafeState t

end Sys2Proof.Machine
end

