-- ==== Sys2Proof/Certificates/Slice0/Obligations.lean ====
section
/-! DEFINITION. The statements for the provers, one definition each, in the order of
OBLIGATIONS.json. A frame is written as an equation: `t = { s with f := t.f, … }` says that t and s
agree on everything but the elements named. -/

namespace Sys2Proof.Machine

/-- One row of 42_commutation.md R140, written out from its table. -/
structure SpecRow140 where
  state   : CommStep
  hi      : Phase
  lo      : Phase
  float   : Phase
  forward : CommStep
  reverse : CommStep

/-- The table of 42_commutation.md R140, as the spec prints it. -/
def specTable140 : List SpecRow140 :=
  [⟨.S0, .A, .B, .C, .S1, .S5⟩, ⟨.S1, .A, .C, .B, .S2, .S0⟩, ⟨.S2, .B, .C, .A, .S3, .S1⟩,
   ⟨.S3, .B, .A, .C, .S4, .S2⟩, ⟨.S4, .C, .A, .B, .S5, .S3⟩, ⟨.S5, .C, .B, .A, .S0, .S4⟩]

/-- What a row of R140 and R144 says of a commutation state's phases. -/
def phasesOfRow (c : Config) (r : SpecRow140) (comm : CommState) : Prop :=
  comm.csm = .step r.state ∧ comm.sensePhase = some r.float ∧
  comm.pwmPhase = some (if c.PWM_SIDE = .high then r.hi else r.lo) ∧
  comm.fixedPhase = some (if c.PWM_SIDE = .high then r.lo else r.hi)

/-- R222: the end of a step. -/
def atStepEnd (s : State) : State :=
  { s with seq := { pc := if s.seq.stepInCycle = 5 then .evaluate else .commutate
                    stepInCycle := s.seq.stepInCycle + 1 } }

/-- The distance from n forward to T on the 24-bit clock (R103). -/
def distance24 (T n : Nat) : Nat := (T + 0x1000000 - n % 0x1000000) % 0x1000000

end Sys2Proof.Machine

open Sys2Proof Sys2Proof.Machine

/-! ## Encoding (30_encoding.md) -/

/-- R76, R77, R79, R87: decoding the word of a well-formed instruction gives the instruction back,
with every operand at every value its field admits. -/
def Obligations.DecodeOfEncodeIsTheInstruction : Prop :=
  ∀ i : Instr, i.wellFormed = true → decode (encode i) = .ok i

/-- R88, R89: a word that decodes is the word of the instruction it decodes to, so each operation has
one word per choice of operands, and what decodes is well formed. -/
def Obligations.EncodeOfDecodeIsTheWord : Prop :=
  ∀ (w : CmdWord) (i : Instr), decode w = .ok i → encode i = w ∧ i.wellFormed = true

/-- R88: the four reasons, each where the earlier ones do not apply. -/
def Obligations.RefusalReasonsInOrder : Prop :=
  ∀ w : CmdWord,
    ((∀ o, (opRow o).code ≠ opcField w) → decode w = .error .illegalOpcode) ∧
    (∀ o, (opRow o).code = opcField w →
      ((opRow o).xBits = 0 ∧ xField w ≠ 0 ∨ (opRow o).yBits = 0 ∧ yField w ≠ 0 ∨
        (opRow o).bBits = 0 ∧ bField w ≠ 0) → decode w = .error .reservedField) ∧
    (opcField w = 0x40 → 0x10000 ≤ (xField w).toNat → decode w = .error .reservedField) ∧
    (opcField w = 0x11 → xField w = 0 → yField w = 0 → 30 < (bField w).toNat →
      decode w = .error .operandRange) ∧
    (opcField w = 0x61 → xField w = 0 → yField w = 0 → (∀ r : Reg, r.addr ≠ bField w) →
      decode w = .error .reservedAddress)

/-- R88: a refused word changes no state except `err` and `lastEvent`, whose code is 0x10 plus the
reason's; it is not performed. -/
def Obligations.RefusedWordOnlyRecordsTheReason : Prop :=
  ∀ (s : State) (w : CmdWord) (rest : List CmdWord) (r : PortRefusal),
    s.env.port = w :: rest → decode w = .error r →
    step s = .next { s with env.port := rest, status.err := true, status.lastEvent := .refused r } ∧
    eventCode (.refused r) = 0x10 +
      (match r with
       | .illegalOpcode => 0 | .reservedField => 1 | .operandRange => 2 | .reservedAddress => 3)

/-- R75: the block takes the word the host presents, and where it decodes performs it; the block then
accepts the next word. A word put at the port is performed by the very next step, on the state as it
was. That a step with no word presented changes nothing is the model's choice (log entry 4). -/
def Obligations.StepPerformsTheDecodedWord : Prop :=
  (∀ (s : State) (w : CmdWord) (rest : List CmdWord) (i : Instr),
    s.env.port = w :: rest → decode w = .ok i → step s = exec i { s with env.port := rest }) ∧
  (∀ (s : State) (w : Nat) (i : Instr), w < 2 ^ 64 → decodeTableWord 64 w = some i →
    step (s.withFetchWord 64 w) = exec i s) ∧
  (∀ s : State, s.env.port = [] → step s = .next s)

/-- R90, R79: words the spec writes out, each with the operation it stands for. -/
def Obligations.SpecWordsDecode : Prop :=
  decode 0x12400000000007D0 = .ok (.deg2t 2000 0 64) ∧
  decode 0x02000000000003E8 = .ok (.armrel 1000) ∧
  decode 0x1111000000000000 = .ok (.predict 17) ∧
  decode 0x4000000000000064 = .ok (.setthr 100) ∧
  decode 0x6103000000000000 = .ok (.rdreg .CSM) ∧
  decode 0x70000000000005DC = .ok (.tick 1500) ∧
  decode 0x5200000000000000 = .ok .eval ∧
  decode 0x2000000000000000 = .ok .commut ∧
  decode 0x3200000000000000 = .ok .edgep

/-! ## Reset (70_reset_and_hazards.md) -/

/-- R280: RESET puts every element at its reset value, keeps the configuration, and fixes no time.
That the clock's draw is the first number the environment has supplied is the model's choice (log
entry 2). -/
def Obligations.ResetSetsEveryElement : Prop :=
  ∀ s : State, ∃ t, exec .reset s = .next t ∧
    t.alarm = ⟨false, 0⟩ ∧ t.irq = ⟨false, false, false⟩ ∧
    t.timing = ⟨0, 0, 0, true, s.cfg.MAX_POWER⟩ ∧
    t.comm = ⟨.allOff, none, none, none, false⟩ ∧
    t.zc = ⟨0, 0, .primary, 0⟩ ∧
    t.duty = ⟨0, 0, 0xFFFF, ~~~s.cfg.MAX_POWER, .off, false, false, false, 0⟩ ∧
    t.beaconCount = 0 ∧
    t.wave = ⟨false, false, 0, 0, false, false, false⟩ ∧
    t.ind = ⟨false, false, false, false⟩ ∧
    t.sw = ⟨.off, .off, .off⟩ ∧
    t.start = ⟨0, 0, 0, 0, 0, 0, .idle⟩ ∧
    t.seq = ⟨.idle, 0⟩ ∧
    t.status = ⟨.none, false, 0⟩ ∧
    t.config = s.config ∧ (∀ n rest, s.env.tauIn = n :: rest → t.tau = n)

/-- R42, R147: the invariant holds right after power-on and after every RESET. -/
def Obligations.InvariantHoldsAtReset : Prop :=
  Inv State.reset ∧ DetectorInv State.reset ∧
  ∀ s : State, ∃ t, exec .reset s = .next t ∧ Inv t ∧ DetectorInv t

/-! ## TimerScheduler (40_timer_scheduler.md) -/

/-- R103, R104: ARMABS. A target at the present time or up to 2^23 cycles behind it elapses at once;
one 1 to 2^23-1 cycles ahead is pending until that many cycles from now; re-arming drops the previous
target and its request; nothing else changes. -/
def Obligations.ArmAbsoluteSetsTheAlarm : Prop :=
  ∀ (s : State) (T : Time), ∃ t, exec (.armabs T) s = .next t ∧
    (distance24 T.toNat s.tau = 0 ∨ 0x800000 ≤ distance24 T.toNat s.tau →
      t.alarm = ⟨false, s.tau⟩) ∧
    (1 ≤ distance24 T.toNat s.tau → distance24 T.toNat s.tau < 0x800000 →
      t.alarm = ⟨true, s.tau + distance24 T.toNat s.tau⟩) ∧
    t = { s with alarm := t.alarm, irq.cmpIrq := false }

/-- R105: ARMREL. A delta of 0 or of 2^23 or more elapses at once; any other is pending for delta
cycles. -/
def Obligations.ArmRelativeSetsTheAlarm : Prop :=
  ∀ (s : State) (d : Time), ∃ t, exec (.armrel d) s = .next t ∧
    (d = 0 ∨ 0x800000 ≤ d.toNat → t.alarm = ⟨false, s.tau⟩) ∧
    (1 ≤ d.toNat → d.toNat < 0x800000 → t.alarm = ⟨true, s.tau + d.toNat⟩) ∧
    t = { s with alarm := t.alarm, irq.cmpIrq := false }

/-- R102: TICK advances the clock and sets the request flags; nothing else changes. -/
def Obligations.TickAdvancesTheClock : Prop :=
  ∀ (s : State) (n : Time), ∃ t, exec (.tick n) s = .next t ∧
    t.tau = s.tau + n.toNat ∧
    t.irq.cmpIrq = (s.irq.cmpIrq ||
      (s.alarm.alarmPending && decide (s.alarm.alarmDeadline ≤ s.tau + n.toNat))) ∧
    t.irq.ovfIrq = (s.irq.ovfIrq || decide (s.tau / 65536 < (s.tau + n.toNat) / 65536)) ∧
    t = { s with tau := t.tau, irq.cmpIrq := t.irq.cmpIrq, irq.ovfIrq := t.irq.ovfIrq }

/-- R102, R104, R255 and SKPP's T4: a target armed in the future stays pending, its request comes
exactly when the clock has advanced that far, and only taking the request clears it. -/
def Obligations.FutureAlarmElapsesExactlyThen : Prop :=
  ∀ (s : State) (d n : Time), 1 ≤ d.toNat → d.toNat < 0x800000 → s.irq.pwmIrq = false →
    ∃ a b c, exec (.armrel d) s = .next a ∧ exec (.tick n) a = .next b ∧ exec .takeirq b = .next c ∧
      a.alarm.alarmPending = true ∧ b.alarm.alarmPending = true ∧
      b.irq.cmpIrq = decide (d.toNat ≤ n.toNat) ∧
      c.alarm.alarmPending = decide (n.toNat < d.toNat)

/-- R106: WAITAL with no alarm pending completes and changes nothing. -/
def Obligations.WaitCompletesWhenElapsed : Prop :=
  ∀ s : State, s.alarm.alarmPending = false → exec .waital s = .next s

/-- R106: WAITAL with an alarm pending has no step: nothing changes but that its word stays presented.
That the next environment or interrupt event word (R87) is let past it, and no other word, is the
model's choice (log entry 5). -/
def Obligations.HeldWaitStaysAtThePort : Prop :=
  ∀ s : State, s.alarm.alarmPending = true → ∃ t, exec .waital s = .next t ∧
    t = { s with env.port := t.env.port } ∧
    t.env.port.Perm (encode .waital :: s.env.port) ∧
    t.env.port.filter (fun w => !isEventWord w) =
      encode .waital :: s.env.port.filter (fun w => !isEventWord w) ∧
    t.env.port.filter isEventWord = s.env.port.filter isEventWord ∧
    (∀ e rest, s.env.port.filter isEventWord = e :: rest → t.env.port.head? = some e)

/-! ## The observation map (10_state.md R39) -/

/-- R101, R39, R85: NOW, and RDREG of each element that is a number or a code: `res` is written and
nothing else. -/
def Obligations.ReadRegisterShowsTheElement : Prop :=
  ∀ s : State,
    exec .now s = .next { s with status.res := BitVec.ofNat 24 s.tau } ∧
    let v := fun (r : Reg) (n : Nat) =>
      ∃ t, exec (.rdreg r) s = .next t ∧ t.status.res.toNat = n ∧ t = { s with status.res := t.status.res }
    v .PC (match s.seq.pc with
      | .idle => 0 | .commutate => 1 | .skipWait => 2 | .demagWait => 3 | .edgeFilter => 4
      | .commWait => 5 | .evaluate => 6 | .stallDelay => 7 | .failed => 8) ∧
    v .STEPIDX s.seq.stepInCycle.val ∧
    v .SUPSTATE (match s.start.supState with
      | .idle => 0 | .starting => 1 | .running => 2 | .stalled => 3 | .failed => 4) ∧
    v .CSM (match s.comm.csm with
      | .step .S0 => 0 | .step .S1 => 1 | .step .S2 => 2 | .step .S3 => 3 | .step .S4 => 4
      | .step .S5 => 5 | .allOff => 7) ∧
    v .PWMMODE (match s.duty.pwmMode with
      | .off => 0 | .normal => 1 | .long => 2 | .full => 3) ∧
    v .NOW (s.tau % 0x1000000) ∧ v .ALARMTGT (s.alarm.alarmDeadline % 0x1000000) ∧
    v .LASTEDGE s.timing.lastEdge.toNat ∧ v .LASTLASTEDGE s.timing.lastLastEdge.toNat ∧
    v .INTERVAL s.timing.interval.toNat ∧ v .TIMINGLIMIT s.timing.timingDutyLimit.toNat ∧
    v .ZCCONF s.zc.conf.toNat ∧ v .ZCWIDTH s.zc.width.toNat ∧ v .ZCT0 s.zc.zcT0.toNat ∧
    v .CMDDUTY s.duty.commandedDuty.toNat ∧ v .RATEDUTY s.duty.rateLimitedDuty.toNat ∧
    v .ONTIMEC s.duty.onTimeC.toNat ∧ v .OFFTIMEC s.duty.offTimeC.toNat ∧
    v .RCTIMEOUT s.duty.rcTimeout.toNat ∧ v .BEACON s.beaconCount.toNat ∧
    v .PWMRELOAD s.wave.pwmReload.toNat ∧ v .PWMEXT s.wave.pwmExt.toNat ∧
    v .GOODIES s.start.goodies.toNat ∧ v .STARTDELAY s.start.startDelay.toNat ∧
    v .STARTMOD s.start.startModulate.toNat ∧ v .STARTFAIL s.start.startFail.toNat ∧
    v .POWERSKIP s.start.powerSkipCount.toNat ∧ v .STALLCOUNT s.start.stallCount.toNat ∧
    v .LASTEVENT (match s.status.lastEvent with
      | .none => 0x00 | .zcTimeout => 0x01 | .zcFollowup => 0x02 | .demagTimeout => 0x03
      | .stall => 0x04 | .startFailed => 0x05 | .overspeedClamp => 0x06 | .signalLoss => 0x07
      | .restart => 0x08 | .powerCeilingZero => 0x09 | .refused .illegalOpcode => 0x10
      | .refused .reservedField => 0x11 | .refused .operandRange => 0x12
      | .refused .reservedAddress => 0x13)

/-- R39: the bits of the packed words FLAGS, IND, PHASES and SW; the bits shown as 0 read as 0. -/
def Obligations.PackedRegistersShowTheirBits : Prop :=
  ∀ s : State, ∃ f i p w,
    exec (.rdreg .FLAGS) s = .next f ∧ exec (.rdreg .IND) s = .next i ∧
    exec (.rdreg .PHASES) s = .next p ∧ exec (.rdreg .SW) s = .next w ∧
    f = { s with status.res := f.status.res } ∧ i = { s with status.res := i.status.res } ∧
    p = { s with status.res := p.status.res } ∧ w = { s with status.res := w.status.res } ∧
    (∀ k, f.status.res.getLsbD k =
      ([s.alarm.alarmPending, s.timing.fastPathEligible, s.duty.powerOnFlag, s.duty.fullPowerFlag,
        s.duty.dutyTracking, s.wave.pwmEnabled, s.wave.pwmSuppressed, s.wave.demagSkip,
        s.wave.wavePhase, s.wave.pwmOut, decide (s.zc.zcWindow = .followup), s.irq.cmpIrq,
        s.irq.ovfIrq, s.irq.pwmIrq, s.status.err].getD k false)) ∧
    (∀ k, i.status.res.getLsbD k =
      ([s.ind.faultInd, s.ind.disarmedInd, s.ind.failInd, s.ind.senseEnabled].getD k false)) ∧
    (let code := fun (q : Option Phase) =>
        match q with | none => (0 : Nat) | some .A => 1 | some .B => 2 | some .C => 3
     p.status.res.toNat = code s.comm.pwmPhase + 4 * code s.comm.fixedPhase +
       16 * code s.comm.sensePhase + (if s.comm.preLevel then 64 else 0)) ∧
    (let code := fun (v : SwState) => match v with | .off => (0 : Nat) | .high => 1 | .low => 2
     w.status.res.toNat = code s.sw.a + 4 * code s.sw.b + 16 * code s.sw.c)

/-! ## TimingPredictor (41_timing_predictor.md) -/

/-- R120: RECEDGE. -/
def Obligations.RecordEdgeClampsTheInterval : Prop :=
  ∀ (s : State) (T : Time), ∃ t, exec (.recedge T) s = .next t ∧
    t.timing.lastEdge = T ∧ t.timing.lastLastEdge = s.timing.lastEdge ∧
    t.timing.timingDutyLimit = s.timing.timingDutyLimit ∧
    t.timing.fastPathEligible = decide (t.timing.interval.toNat < 65536) ∧
    (s.cfg.MIN_INTERVAL.toNat ≤ distance24 T.toNat s.timing.lastEdge.toNat →
      t.timing.interval.toNat = distance24 T.toNat s.timing.lastEdge.toNat ∧
      t = { s with timing := t.timing }) ∧
    (distance24 T.toNat s.timing.lastEdge.toNat < s.cfg.MIN_INTERVAL.toNat →
      t.timing.interval = s.cfg.MIN_INTERVAL ∧
      t.duty.rateLimitedDuty.toNat = s.duty.rateLimitedDuty.toNat / 2 ∧
      t = { s with timing := t.timing, duty.rateLimitedDuty := t.duty.rateLimitedDuty
                   status.lastEvent := .overspeedClamp })

/-- R121, R122: PREDICT, for every advance of its range; `res` and nothing else is written. -/
def Obligations.PredictGivesTheNextCrossing : Prop :=
  ∀ (s : State) (b : Byte), b.toNat ≤ 30 → ∃ t, exec (.predict b) s = .next t ∧
    t.status.res.toNat =
      (s.timing.lastLastEdge.toNat
        + distance24 s.timing.lastEdge.toNat s.timing.lastLastEdge.toNat / 2
        + s.timing.interval.toNat + s.timing.interval.toNat * b.toNat / 180) % 0x1000000 ∧
    t = { s with status.res := t.status.res }

/-- R123: DEG2T is the exact floor product, added modulo 2^24; the 32-bit accumulator never
overflows. -/
def Obligations.DegreesToTimeIsTheFloorProduct : Prop :=
  ∀ (s : State) (x y : Time) (b : Byte), ∃ t, exec (.deg2t x y b) s = .next t ∧
    (degreesAcc x b).toNat = x.toNat * b.toNat ∧
    t.status.res.toNat = (y.toNat + x.toNat * b.toNat / 256) % 0x1000000 ∧
    t = { s with status.res := t.status.res }

/-- R107, R126: where the interval fits 16 bits the cheaper paths give what DEG2T and PREDICT give.
What PREDICT's cheaper path computes is the model's choice (log entry 14). -/
def Obligations.FastPathsAgree : Prop :=
  ∀ (s : State) (x y : Time) (b : Byte),
    (x.toNat < 65536 → exec (.deg2t x y b) s =
      .next { s with status.res := degreesToTimeFast (x.truncate 16) y b }) ∧
    (s.timing.interval.toNat < 65536 → b.toNat ≤ 30 → exec (.predict b) s =
      .next { s with status.res := predictNextCrossingFast s.timing b })

/-- R125: restoring division gives the exact quotient and remainder. -/
def Obligations.RestoringDivisionIsExact : Prop :=
  ∀ (N : BitVec 32) (D : Time), 1 ≤ D.toNat →
    (restoringDivide N D).toNat = N.toNat / D.toNat ∧
    (restoringDivMod N D).2.toNat = N.toNat % D.toNat

/-- R124: TLIMIT writes the timing limit and nothing else. -/
def Obligations.TimingLimitIsTheCappedReciprocal : Prop :=
  ∀ s : State, ∃ t, exec .tlimit s = .next t ∧
    (s.timing.interval.toNat < 1700 → t.timing.timingDutyLimit = s.cfg.MAX_POWER) ∧
    (1700 ≤ s.timing.interval.toNat → t.timing.timingDutyLimit.toNat =
      min (s.cfg.TIMING_LIMIT_NUM.toNat / s.timing.interval.toNat) s.cfg.MAX_POWER.toNat) ∧
    t = { s with timing.timingDutyLimit := t.timing.timingDutyLimit }

/-! ## CommutationStateMachine (42_commutation.md) -/

/-- R140, R141, R142, R144: from each state COMMUT enters the state, phases and pre-crossing level the
table gives in the configured direction, and from ALLOFF it enters S0 as if from S5 or S1. -/
def Obligations.CommutationFollowsTheTable : Prop :=
  ∀ (s : State), ∀ r ∈ specTable140, ∀ n ∈ specTable140,
    (s.comm.csm = .step r.state → n.state = (if s.cfg.REVERSE then r.reverse else r.forward) →
      ∃ t, exec .commut s = .next t ∧ phasesOfRow s.cfg n t.comm ∧
        t.comm.preLevel = decide (n.float = r.hi) ∧ (t.comm.preLevel = false → n.float = r.lo)) ∧
    (s.comm.csm = .allOff → n.state = .S0 → r.state = (if s.cfg.REVERSE then .S1 else .S5) →
      ∃ t, exec .commut s = .next t ∧ phasesOfRow s.cfg n t.comm ∧
        t.comm.preLevel = decide (n.float = r.hi) ∧ (t.comm.preLevel = false → n.float = r.lo))

/-- R143, R146: what COMMUT does to the switches, the demag bits and goodies, from a state that meets
the invariant; and its frame. -/
def Obligations.CommutationSwitchesTheStage : Prop :=
  ∀ s : State, Inv s → ∃ t newP newF sense, exec .commut s = .next t ∧
    t.comm.pwmPhase = some newP ∧ t.comm.fixedPhase = some newF ∧ t.comm.sensePhase = some sense ∧
    newP ≠ newF ∧ newP ≠ sense ∧ newF ≠ sense ∧
    (let powered := !s.wave.demagSkip && s.duty.powerOnFlag
     t.sw.get newP = (if powered && s.wave.pwmEnabled && s.wave.pwmOut then sideP s.cfg else .off) ∧
     t.sw.get newF = (if powered then sideF s.cfg else .off) ∧
     t.sw.get sense = .off ∧
     t.start.goodies = (if powered then s.start.goodies else 0)) ∧
    t.wave.demagSkip = false ∧
    t.wave.pwmSuppressed = (s.wave.demagSkip && s.wave.pwmSuppressed) ∧
    t = { s with comm := t.comm, sw := t.sw, start.goodies := t.start.goodies
                 wave.demagSkip := t.wave.demagSkip, wave.pwmSuppressed := t.wave.pwmSuppressed }

/-- R165, R143: after a demagnetization timeout exactly the next commutation is unpowered. -/
def Obligations.DemagTimeoutSkipsOneCommutation : Prop :=
  ∀ s : State, Inv s → s.duty.powerOnFlag = true →
    ∃ a b c, exec .demagto s = .next a ∧ exec .commut a = .next b ∧ exec .commut b = .next c ∧
      b.sw = ⟨.off, .off, .off⟩ ∧ b.wave.pwmSuppressed = true ∧ b.wave.demagSkip = false ∧
      c.wave.pwmSuppressed = false ∧
      (∀ p, c.comm.fixedPhase = some p → c.sw.get p = sideF s.cfg)

/-- R148: ALLOFF. -/
def Obligations.AllOffOpensEverySwitch : Prop :=
  ∀ s : State, exec .alloff s = .next { s with
    sw := ⟨.off, .off, .off⟩, comm := ⟨.allOff, none, none, none, false⟩ }

/-- R147, R42(3): a state that meets the invariant is safe: at most one phase HIGH, at most one LOW,
and the sense phase off; and R42(1), (2), (4) hold of it. -/
def Obligations.InvariantMeansSafe : Prop :=
  ∀ s : State, Inv s → SafeState s ∧
    (s.comm.csm = .allOff ↔
      s.comm.pwmPhase = none ∧ s.comm.fixedPhase = none ∧ s.comm.sensePhase = none) ∧
    (∀ r ∈ specTable140, s.comm.csm = .step r.state → phasesOfRow s.cfg r s.comm) ∧
    (∀ p, s.comm.pwmPhase ≠ some p → s.comm.fixedPhase ≠ some p → s.sw.get p = .off)

/-- R42, R147: every step keeps the invariant, from every state that meets it. -/
def Obligations.EveryStepKeepsTheInvariant : Prop :=
  ∀ s s' : State, Inv s → step s = .next s' → Inv s'

/-- R147, R251: from every state that meets the invariant, every run goes on for any number of steps
and passes only safe states. That a step goes on with no word presented, at a held WAITAL and after a
refused word is the model's choice (log entries 4, 5 and 6). -/
def Obligations.EveryRunIsSafe : Prop :=
  ∀ (s : State) (k : Nat), Inv s → SafeRun k s

/-- R42(5): the detector's bounds are kept by every operation but EDGEP, which on the port may confirm
a crossing without the sequencer leaving EDGE_FILTER (R86; log entry 7). -/
def Obligations.DetectorBoundsAreKept : Prop :=
  ∀ (s t : State) (i : Instr), DetectorInv s → i ≠ .edgep → exec i s = .next t → DetectorInv t

/-- R285(1): a PWM handler that runs between parts (2) and (3) of a commutation gives the same end
state as one that runs after it. -/
def Obligations.HandlerInsideCommutationIsTheSame : Prop :=
  ∀ s : State, Inv s →
    let N := enteredStep s.cfg s.comm.csm
    let powered := commutationPowered s
    let s₂ := switchPwmPhase (pwmPhaseOf s.cfg N) powered
      (settlePower (selectSense N (previousStep s.cfg s.comm.csm) s))
    let part3 := fun u => { switchFixedPhase (fixedPhaseOf s.cfg N) powered u with comm.csm := .step N }
    exec .commut s = .next (part3 s₂) ∧ part3 (pwmHandler s₂) = pwmHandler (part3 s₂)

/-! ## ZeroCrossWaitEngine (43_zero_cross.md) -/

/-- R160, R170: ZCARM. -/
def Obligations.ZcArmOpensTheDemagWindow : Prop :=
  ∀ s : State, ∃ a t,
    exec (.armabs (BitVec.ofNat 24 (s.tau + s.timing.interval.toNat * s.cfg.DEMAG_DEGREES.toNat / 256
      + s.start.startDelay.toNat * s.cfg.START_DELAY_UNIT.toNat))) s = .next a ∧
    exec .zcarm s = .next t ∧
    t.zc.width.toNat = min (max (s.timing.interval.toNat / 4) s.cfg.ZC_FILTER_MIN.toNat)
      s.cfg.ZC_FILTER_MAX.toNat ∧
    t.zc.conf = t.zc.width ∧ 1 ≤ t.zc.width.toNat ∧ t.zc.zcWindow = .primary ∧
    t.zc.zcT0 = BitVec.ofNat 24 s.tau ∧
    t = { s with zc := t.zc, alarm := a.alarm, irq := a.irq }

/-- R34, R63: a poll takes exactly one comparator sample: the next one the environment has supplied,
or, with none supplied, a free value (log entry 3). -/
def Obligations.PollTakesOneSample : Prop :=
  ∀ s : State, ∃ t u, exec .demagp s = .next t ∧ exec .edgep s = .next u ∧ t.env = u.env ∧
    (∀ b rest, s.env.cmpIn = b :: rest →
      (drawCmp s.env).1 = b ∧ t.env = { s.env with cmpIn := rest }) ∧
    (s.env.cmpIn = [] → t.env = { s.env with draws := s.env.draws + 1 })

/-- R162: DEMAGP, for every sample. -/
def Obligations.DemagPollOutcomes : Prop :=
  ∀ s : State, ∃ a t,
    exec (.armabs (BitVec.ofNat 24 (s.zc.zcT0.toNat +
      s.timing.interval.toNat * s.cfg.ZC_TIMEOUT_DEGREES.toNat / 256))) s = .next a ∧
    exec .demagp s = .next t ∧
    (s.alarm.alarmPending = false →
      t = { s with status.res := 2, env := (drawCmp s.env).2 }) ∧
    (s.alarm.alarmPending = true → (drawCmp s.env).1 = s.comm.preLevel →
      t = { a with status.res := 1, env := (drawCmp s.env).2 }) ∧
    (s.alarm.alarmPending = true → (drawCmp s.env).1 ≠ s.comm.preLevel →
      t = { s with status.res := 0, env := (drawCmp s.env).2 })

/-- R163: EDGEP, for every sample. -/
def Obligations.EdgePollOutcomes : Prop :=
  ∀ s : State, ∃ t, exec .edgep s = .next t ∧
    (s.alarm.alarmPending = false → t.status.res = 2 ∧ t.zc = s.zc) ∧
    (s.alarm.alarmPending = true → (drawCmp s.env).1 = s.comm.preLevel →
      t.status.res = 0 ∧ t.zc.conf.toNat = min (s.zc.conf.toNat + 1) s.zc.width.toNat) ∧
    (s.alarm.alarmPending = true → (drawCmp s.env).1 ≠ s.comm.preLevel →
      t.zc.conf.toNat = s.zc.conf.toNat - 1 ∧
      t.status.res = (if t.zc.conf = 0 then 1 else 0)) ∧
    t = { s with zc.conf := t.zc.conf, status.res := t.status.res, env := (drawCmp s.env).2 }

/-- R169, R164: FEEDBK records the present time as an edge, recomputes the timing limit and then the
duty; CONFIRM does the same and then arms the alarm at the predicted next crossing. -/
def Obligations.FeedbackAndConfirm : Prop :=
  ∀ s : State, ∃ a b t p u, exec (.recedge (BitVec.ofNat 24 s.tau)) s = .next a ∧
    exec .tlimit a = .next b ∧ exec .recomp b = .next t ∧ exec .feedbk s = .next t ∧
    exec (.predict s.cfg.ADVANCE_DEGREES) t = .next p ∧
    exec (.armabs p.status.res) t = .next u ∧ exec .confirm s = .next u

/-- R165: DEMAGTO. -/
def Obligations.DemagTimeoutSuppressesPwm : Prop :=
  ∀ s : State, exec .demagto s = .next { s with
    wave.pwmSuppressed := true, wave.demagSkip := true, start.goodies := 0
    status.lastEvent := .demagTimeout
    sw := match s.comm.pwmPhase with
      | none => s.sw
      | some .A => { s.sw with a := .off }
      | some .B => { s.sw with b := .off }
      | some .C => { s.sw with c := .off } }

/-- R166: ZCTO: the follow-up window when a crossing was in progress in the primary window, else the
final timeout. -/
def Obligations.EdgeTimeoutBranches : Prop :=
  ∀ s : State,
    (s.zc.zcWindow = .primary → s.zc.conf.toNat < s.zc.width.toNat →
      ∃ a, exec (.armabs (BitVec.ofNat 24 (s.tau +
          s.timing.interval.toNat * s.cfg.FOLLOWUP_DEGREES.toNat / 256))) s = .next a ∧
        exec .zcto s = .next { a with
          zc.width := s.zc.conf, zc.zcWindow := .followup
          status.res := 3, status.lastEvent := .zcFollowup }) ∧
    (s.zc.zcWindow = .followup ∨ s.zc.width.toNat ≤ s.zc.conf.toNat →
      ∃ t, exec .zcto s = .next t ∧
        t.ind.faultInd = (if s.start.supState = .running then true else s.ind.faultInd) ∧
        t.start.startDelay.toNat = min (s.start.startDelay.toNat + s.cfg.START_DELAY_INC.toNat) 255 ∧
        t = { s with
          ind.faultInd := t.ind.faultInd, start.goodies := 0, start.startDelay := t.start.startDelay
          zc.zcWindow := .primary, status.res := 4, status.lastEvent := .zcTimeout })

/-- R167: SKIPARM. -/
def Obligations.SkipArmCountsAndArms : Prop :=
  ∀ s : State, ∃ t, exec .skiparm s = .next t ∧
    t.start.powerSkipCount.toNat = s.start.powerSkipCount.toNat - 1 ∧
    t = { s with start.powerSkipCount := t.start.powerSkipCount
                 alarm := ⟨true, s.tau + s.cfg.SKIP_TIMEOUT.toNat⟩, irq.cmpIrq := false }

/-! ## DutyController (44_duty_pwm.md) -/

/-- R190: with duty tracking on, a throttle command is bounded, clears the two counters and recomputes
the duty; with it off, the command only counts the signal timeout, which saturates (from a counter that
is in its range, R42(6)), and reports the loss at the ceiling. -/
def Obligations.ThrottleCommand : Prop :=
  ∀ (s : State) (v : Word16),
    (s.duty.dutyTracking = true → ∃ t,
      exec .recomp { s with
        duty.commandedDuty := BitVec.ofNat 16 (min v.toNat (s.cfg.POWER_RANGE.toNat - 1))
        duty.rcTimeout := 0, beaconCount := 0 } = .next t ∧
      exec (.setthr v) s = .next t ∧
      t.duty.commandedDuty.toNat = min v.toNat (s.cfg.POWER_RANGE.toNat - 1) ∧
      t.duty.rcTimeout = 0 ∧ t.beaconCount = 0) ∧
    (s.duty.dutyTracking = false → s.duty.rcTimeout.toNat ≤ s.cfg.RC_TIMEOUT_CEIL.toNat → ∃ t,
      exec (.setthr v) s = .next t ∧
      t.duty.rcTimeout.toNat = min (s.duty.rcTimeout.toNat + 1) s.cfg.RC_TIMEOUT_CEIL.toNat ∧
      t.status.lastEvent =
        (if t.duty.rcTimeout = s.cfg.RC_TIMEOUT_CEIL then .signalLoss else s.status.lastEvent) ∧
      t = { s with duty.rcTimeout := t.duty.rcTimeout, status.lastEvent := t.status.lastEvent })

/-- R191, R192, R193, R194, R195: RECOMP, for every state. -/
def Obligations.RecomputeDutyCases : Prop :=
  ∀ s : State, ∃ t, exec .recomp s = .next t ∧
    (let T := min (min (if s.duty.rcTimeout = s.cfg.RC_TIMEOUT_CEIL then 0
                        else s.duty.commandedDuty.toNat)
                    s.timing.timingDutyLimit.toNat) s.duty.rateLimitedDuty.toNat
     let k := if s.cfg.STARTUP_PWM_DOUBLE = true ∧ s.start.supState = .starting then 2 else 1
     let on := k * T
     let off := k * (s.cfg.MAX_POWER.toNat - T)
     (T = 0 →
       t.duty = { s.duty with onTimeC := 0xFFFF, offTimeC := ~~~s.cfg.MAX_POWER, pwmMode := .off
                              fullPowerFlag := false, powerOnFlag := false } ∧
       t.wave.pwmOut = false ∧ t.sw = s.sw.setOpt s.comm.pwmPhase .off) ∧
     (T ≠ 0 → t.duty.rateLimitedDuty.toNat = min s.duty.rateLimitedDuty.toNat (2 * T)) ∧
     (s.cfg.MAX_POWER.toNat ≤ T →
       t.duty = { s.duty with rateLimitedDuty := t.duty.rateLimitedDuty
                              onTimeC := ~~~(BitVec.ofNat 16 T), offTimeC := 0xFFFF, pwmMode := .full
                              fullPowerFlag := true, powerOnFlag := true } ∧
       t.wave.pwmOut = true ∧
       t.sw = (if s.wave.pwmEnabled && !s.wave.pwmSuppressed
               then s.sw.setOpt s.comm.pwmPhase (sideP s.cfg) else s.sw)) ∧
     (T ≠ 0 → T < s.cfg.MAX_POWER.toNat →
       t.duty = { s.duty with rateLimitedDuty := t.duty.rateLimitedDuty
                              onTimeC := t.duty.onTimeC, offTimeC := t.duty.offTimeC
                              pwmMode := if on ≤ 255 ∧ off ≤ 255 then .normal else .long
                              fullPowerFlag := false, powerOnFlag := true } ∧
       (~~~t.duty.onTimeC).toNat = on ∧ (~~~t.duty.offTimeC).toNat = off ∧
       t.wave.pwmOut = s.wave.pwmOut ∧ t.sw = s.sw)) ∧
    t = { s with duty := t.duty, wave.pwmOut := t.wave.pwmOut, sw := t.sw }

/-- R202: a second recompute with nothing else changed writes what the first wrote. -/
def Obligations.RecomputeDutyIsIdempotent : Prop :=
  ∀ s : State, ∃ t, exec .recomp s = .next t ∧ exec .recomp t = .next t

/-- R203, R204: a zero throttle, or signal loss, gives the off waveform whatever the prior state; and,
the timing limit being at most MAX_POWER (R124), continuous drive comes exactly when the throttle, the
limit and the ceiling all reach MAX_POWER without signal loss. -/
def Obligations.ZeroAndFullThrottle : Prop :=
  ∀ s : State, ∃ t, exec .recomp s = .next t ∧
    (s.duty.commandedDuty = 0 ∨ s.duty.rcTimeout = s.cfg.RC_TIMEOUT_CEIL →
      t.duty.pwmMode = .off ∧ t.duty.powerOnFlag = false ∧
      t.duty.onTimeC = 0xFFFF ∧ t.duty.offTimeC = ~~~s.cfg.MAX_POWER ∧ t.wave.pwmOut = false) ∧
    (s.timing.timingDutyLimit.toNat ≤ s.cfg.MAX_POWER.toNat →
      (t.duty.fullPowerFlag = true ↔
        s.cfg.MAX_POWER.toNat ≤ s.duty.commandedDuty.toNat ∧
        s.timing.timingDutyLimit = s.cfg.MAX_POWER ∧
        s.cfg.MAX_POWER.toNat ≤ s.duty.rateLimitedDuty.toNat ∧
        s.duty.rcTimeout ≠ s.cfg.RC_TIMEOUT_CEIL)) ∧
    (t.duty.fullPowerFlag = true → t.duty.pwmMode = .full ∧ t.wave.pwmOut = true)

/-! ## Interrupts (60_exceptions.md) -/

/-- R253, R254, R255, R256: TAKEIRQ takes the PWM request first, then the compare match, then the
overflow; with no request it only answers 0. -/
def Obligations.TakeInterruptByPriority : Prop :=
  ∀ s : State,
    (s.irq.pwmIrq = true → exec .takeirq s =
      .next { pwmHandler { s with irq.pwmIrq := false } with status.res := 1 }) ∧
    (s.irq.pwmIrq = false → s.irq.cmpIrq = true → exec .takeirq s =
      .next { s with irq.cmpIrq := false, alarm.alarmPending := false, status.res := 1 }) ∧
    (s.irq.pwmIrq = false → s.irq.cmpIrq = false → s.irq.ovfIrq = true → ∃ t,
      exec .takeirq s = .next t ∧ t.beaconCount.toNat = min (s.beaconCount.toNat + 1) 255 ∧
      t = { s with irq.ovfIrq := false, beaconCount := t.beaconCount, status.res := 1 }) ∧
    (s.irq = ⟨false, false, false⟩ → exec .takeirq s = .next { s with status.res := 0 })

/-- R200, R257: PWMOVF requests the PWM-cycle overflow handler and changes nothing else; TAKEIRQ runs
the handler. -/
def Obligations.PwmHandlerAdvancesTheWaveform : Prop :=
  ∀ s : State, exec .pwmovf s = .next { s with irq := { s.irq with pwmIrq := true } } ∧
    (s.irq.pwmIrq = true → ∃ t, exec .takeirq s = .next t ∧
    (s.wave.pwmEnabled = false → t = { s with irq.pwmIrq := false, status.res := 1 }) ∧
    (s.wave.pwmEnabled = true →
      (s.duty.pwmMode = .off → t.wave = { s.wave with pwmOut := false }) ∧
      (s.duty.pwmMode = .full → t.wave = { s.wave with pwmOut := true }) ∧
      (s.duty.pwmMode = .normal ∨ s.duty.pwmMode = .long →
        (s.wave.pwmExt ≠ 0 → t.wave = { s.wave with pwmExt := s.wave.pwmExt - 1 }) ∧
        (s.wave.pwmExt = 0 → s.wave.wavePhase = true → t.wave = { s.wave with
          wavePhase := false, pwmOut := false, pwmReload := s.duty.offTimeC.extractLsb' 0 8
          pwmExt := (~~~s.duty.offTimeC).extractLsb' 8 8 }) ∧
        (s.wave.pwmExt = 0 → s.wave.wavePhase = false → t.wave = { s.wave with
          wavePhase := true, pwmOut := true, pwmReload := s.duty.onTimeC.extractLsb' 0 8
          pwmExt := (~~~s.duty.onTimeC).extractLsb' 8 8 })) ∧
      t.sw = s.sw.setOpt s.comm.pwmPhase
        (if t.wave.pwmOut && !s.wave.pwmSuppressed && s.duty.powerOnFlag then sideP s.cfg else .off)) ∧
    t = { s with irq.pwmIrq := false, wave := t.wave, sw := t.sw, status.res := 1 })

/-- R254: the three handlers write disjoint state and none reads what another writes, so any order of
taking gives the same end state. -/
def Obligations.HandlerOrderDoesNotMatter : Prop :=
  ∀ s : State, takePwm (takeCmp s) = takeCmp (takePwm s) ∧
    takePwm (takeOvf s) = takeOvf (takePwm s) ∧ takeCmp (takeOvf s) = takeOvf (takeCmp s)

/-- R253: three TAKEIRQ leave no request pending, whatever was pending, and the foreground untouched. -/
def Obligations.ThreeTakesClearEveryRequest : Prop :=
  ∀ s : State, ∃ a b c, exec .takeirq s = .next a ∧ exec .takeirq a = .next b ∧
    exec .takeirq b = .next c ∧ c.irq = ⟨false, false, false⟩ ∧
    c.seq = s.seq ∧ c.comm = s.comm ∧ c.zc = s.zc ∧ c.timing = s.timing ∧ c.duty = s.duty ∧
    c.start = s.start ∧ c.tau = s.tau ∧ (s.irq.cmpIrq = true → c.alarm.alarmPending = false)

/-! ## StartupSupervisor and sequencer (45_supervisor.md) -/

/-- R223, R284: RESTART forces everything off and starts again, whatever the state; what R223 and R224
do not list stays. -/
def Obligations.RestartControlStartsUnpowered : Prop :=
  ∀ s : State, ∃ t,
    exec .startfr { s with
      sw := ⟨.off, .off, .off⟩, comm := ⟨.allOff, none, none, none, false⟩
      duty.dutyTracking := false, wave.pwmEnabled := false, duty.commandedDuty := 0
      ind.disarmedInd := true, ind.faultInd := false, ind.senseEnabled := false
      start.supState := .idle, status.lastEvent := .restart } = .next t ∧
    exec .restart s = .next t ∧
    t.start.supState = .starting ∧ t.seq = ⟨.commutate, 0⟩ ∧ t.comm.csm = .allOff ∧
    t.duty.commandedDuty = 0 ∧ t.duty.powerOnFlag = false ∧ t.status.lastEvent = .restart ∧
    t.sw = ⟨.off, .off, .off⟩ ∧
    t.timing = s.timing ∧ t.alarm = s.alarm ∧ t.irq = s.irq ∧ t.duty.rcTimeout = s.duty.rcTimeout ∧
    t.beaconCount = s.beaconCount ∧ t.zc = s.zc ∧ t.status.err = s.status.err ∧
    t.status.res = s.status.res ∧ t.tau = s.tau

/-- R224: STARTFR resets the startup counters, enables tracking and PWM at the minimum start power,
recomputes the duty, and enters the main loop at a cycle start. -/
def Obligations.StartFromRunningEntersTheLoop : Prop :=
  ∀ s : State, ∃ a t,
    exec .recomp { s with
      start := ⟨0, 0, 0, 0, s.cfg.POWER_SKIP_INIT, 0, .starting⟩
      ind.senseEnabled := true, ind.disarmedInd := false
      duty.rateLimitedDuty := s.cfg.PWR_MIN_START, duty.dutyTracking := true
      wave.pwmEnabled := true } = .next a ∧
    exec .startfr s = .next t ∧ t = { a with seq := ⟨.commutate, 0⟩ }

/-- R225, R226: EVAL's four branches in the rule's order. -/
def Obligations.EvaluationBranches : Prop :=
  ∀ s : State,
    (s.duty.powerOnFlag = false → s.start.goodies = 0 →
      exec .eval s = .next { s with
        start.supState := .stalled, start.stallCount := s.cfg.STALL_REPEATS
        alarm := ⟨true, s.tau + s.cfg.STALL_DELTA.toNat⟩, irq.cmpIrq := false
        status.lastEvent := .stall, seq.pc := .stallDelay }) ∧
    (s.cfg.ENOUGH_GOODIES.toNat ≤ s.start.goodies.toNat → ∃ a,
      exec .recomp { s with
        start.startDelay := 0, start.startModulate := 0, start.startFail := 0
        start.supState := .running
        duty.rateLimitedDuty := BitVec.ofNat 16
          (min (s.duty.rateLimitedDuty.toNat + s.cfg.RUN_RAMP_STEP.toNat) s.cfg.MAX_POWER.toNat) }
        = .next a ∧
      exec .eval s = .next { a with seq.pc := .commutate }) ∧
    (s.duty.powerOnFlag = true ∨ s.start.goodies ≠ 0 →
      s.start.goodies.toNat < s.cfg.ENOUGH_GOODIES.toNat →
      (s.duty.rateLimitedDuty = 0 →
        exec .eval s = exec .startfr { s with status.lastEvent := .powerCeilingZero }) ∧
      (s.duty.rateLimitedDuty ≠ 0 →
        let c := { s with
          start.goodies := s.start.goodies + 1
          start.startModulate := s.start.startModulate + s.cfg.START_MOD_INC
          start.startFail := s.start.startFail + s.cfg.START_FAIL_INC }
        (c.start.startModulate = 0 → c.start.startFail = 0 → exec .eval s = exec .failed c) ∧
        (c.start.startModulate ≠ 0 ∨ c.start.startFail ≠ 0 → ∃ a,
          exec .recomp { c with
            start.supState := .starting
            duty.rateLimitedDuty := BitVec.ofNat 16
              (min (s.duty.rateLimitedDuty.toNat + s.cfg.START_RAMP_STEP.toNat)
                (if c.start.startModulate.toNat < s.cfg.START_MOD_LIMIT.toNat
                 then s.cfg.PWR_MAX_START.toNat else s.cfg.PWR_COOL_START.toNat)) } = .next a ∧
          exec .eval s = .next { a with seq.pc := .commutate })))

/-- R226: an evaluation with enough goodies always enters the running ramp, and a starting evaluation
whose counters both wrap to zero always enters the failed state. -/
def Obligations.EvaluationLaws : Prop :=
  ∀ s : State, ∃ t, exec .eval s = .next t ∧
    (s.cfg.ENOUGH_GOODIES.toNat ≤ s.start.goodies.toNat →
      t.start.supState = .running ∧ t.seq.pc = .commutate ∧ t.start.goodies = s.start.goodies) ∧
    (s.start.goodies.toNat < s.cfg.ENOUGH_GOODIES.toNat → s.duty.rateLimitedDuty ≠ 0 →
      (s.duty.powerOnFlag = true ∨ s.start.goodies ≠ 0) →
      s.start.startModulate + s.cfg.START_MOD_INC = 0 →
      s.start.startFail + s.cfg.START_FAIL_INC = 0 →
      t.start.supState = .failed ∧ t.seq.pc = .failed)

/-- R227: FAILED. -/
def Obligations.StartFailedTurnsEverythingOff : Prop :=
  ∀ s : State, exec .failed s = .next { s with
    sw := ⟨.off, .off, .off⟩, comm := ⟨.allOff, none, none, none, false⟩
    wave.pwmEnabled := false, duty.dutyTracking := false, ind.senseEnabled := false
    start.supState := .failed, status.lastEvent := .startFailed, seq.pc := .failed }

/-- R227, R228, R290: in FAILED a STEP only toggles the failure indicator, and no operation but RESET
and the port's RESTART, STARTFR and EVAL leaves FAILED. -/
def Obligations.FailedIsTerminal : Prop :=
  ∀ s : State, s.seq.pc = .failed →
    exec .step s = .next { s with ind.failInd := !s.ind.failInd, status.res := 1 } ∧
    ∀ i, i ≠ .reset → i ≠ .restart → i ≠ .startfr → i ≠ .eval →
      ∃ t, exec i s = .next t ∧ t.seq.pc = .failed

/-- R221, R168: STEP in IDLE restarts; in COMMUTATE it commutates and arms an open-loop step while
powerSkipCount is not 0, else the demagnetization window; in EVALUATE it evaluates; in STALL_DELAY,
once the alarm has elapsed, it counts one alarm down and restarts at the last, else arms the next. -/
def Obligations.StepRunsTheStatesOperation : Prop :=
  ∀ s : State,
    (s.seq.pc = .idle → ∃ a, exec .restart s = .next a ∧
      exec .step s = .next { a with status.res := 1 }) ∧
    (s.seq.pc = .commutate → ∃ a b, exec .commut s = .next a ∧
      exec (if s.start.powerSkipCount = 0 then .zcarm else .skiparm) a = .next b ∧
      exec .step s = .next { b with
        seq.pc := if s.start.powerSkipCount = 0 then .demagWait else .skipWait, status.res := 1 }) ∧
    (s.seq.pc = .evaluate → ∃ a, exec .eval s = .next a ∧
      exec .step s = .next { a with status.res := 1 }) ∧
    (s.seq.pc = .stallDelay → s.alarm.alarmPending = false → 1 ≤ s.start.stallCount.toNat →
      ∃ n a, n.toNat = s.start.stallCount.toNat - 1 ∧
        exec (if s.start.stallCount = 1 then .restart else .armrel s.cfg.STALL_DELTA)
          { s with start.stallCount := n } = .next a ∧
        exec .step s = .next { a with status.res := 1 })

/-- R221, R222: a STEP in a wait whose alarm is pending is held: nothing changes but `res <- 0`; once
the alarm has elapsed, a STEP in SKIP_WAIT or COMM_WAIT ends the step, with the feedback only in
SKIP_WAIT. -/
def Obligations.StepInAWait : Prop :=
  ∀ s : State,
    (s.alarm.alarmPending = true →
      s.seq.pc = .skipWait ∨ s.seq.pc = .commWait ∨ s.seq.pc = .stallDelay →
      exec .step s = .next { s with status.res := 0 }) ∧
    (s.alarm.alarmPending = false → s.seq.pc = .skipWait → ∃ a, exec .feedbk s = .next a ∧
      exec .step s = .next { atStepEnd a with status.res := 1 }) ∧
    (s.alarm.alarmPending = false → s.seq.pc = .commWait →
      exec .step s = .next { atStepEnd s with status.res := 1 })

/-- R221, R222: a STEP in DEMAG_WAIT or EDGE_FILTER polls once and goes on as the poll's outcome says. -/
def Obligations.StepPollsOnce : Prop :=
  ∀ s : State,
    (s.seq.pc = .demagWait → ∃ a, exec .demagp s = .next a ∧
      (a.status.res = 0 → exec .step s = .next { a with status.res := 1 }) ∧
      (a.status.res = 1 → exec .step s = .next { a with seq.pc := .edgeFilter, status.res := 1 }) ∧
      (a.status.res = 2 → ∃ b c, exec .demagto a = .next b ∧ exec .feedbk b = .next c ∧
        exec .step s = .next { atStepEnd c with status.res := 1 })) ∧
    (s.seq.pc = .edgeFilter → ∃ a, exec .edgep s = .next a ∧
      (a.status.res = 0 → exec .step s = .next { a with status.res := 1 }) ∧
      (a.status.res = 1 → ∃ b, exec .confirm a = .next b ∧
        exec .step s = .next { b with seq.pc := .commWait, status.res := 1 }) ∧
      (a.status.res = 2 → ∃ q, exec .zcto a = .next q ∧
        (q.status.res = 3 → exec .step s = .next { q with status.res := 1 }) ∧
        (q.status.res = 4 → ∃ c, exec .feedbk q = .next c ∧
          exec .step s = .next { atStepEnd c with status.res := 1 })))

/-! ## Rules of the whole machine -/

/-- R86: every operation on the port other than STEP, RESTART, STARTFR, EVAL and FAILED (and the event
word RESET) leaves `pc` and `stepInCycle` unchanged. -/
def Obligations.PortOperationsKeepTheSequencer : Prop :=
  ∀ (i : Instr) (s : State), i ≠ .step → i ≠ .restart → i ≠ .startfr → i ≠ .eval → i ≠ .failed →
    i ≠ .reset → ∃ t, exec i s = .next t ∧ t.seq = s.seq

/-- R251, R21, R6: no operation traps or aborts: each answers a next state; only TICK and RESET move
the clock; none changes the configuration. Two of the answers are the model's choice: WAITAL with an
alarm pending, which has no step (R106), answers the state with its word still presented (log entry
5), and PREDICT above 30, which no word gives, answers the refusal's effect (log entry 6). -/
def Obligations.EveryOperationCompletes : Prop :=
  ∀ (i : Instr) (s : State), ∃ t, exec i s = .next t ∧ t.config = s.config ∧
    ((∀ n, i ≠ .tick n) → i ≠ .reset → t.tau = s.tau)

/-! ## The realisation (40_timer_scheduler.md R108, R109) -/

/-- R108: the corrected read gives the abstract clock's 24 bits, whether a wrap's request was counted,
is pending, or was raised by a wrap after the counter was read; and running the counter and taking the
overflow keep the registers in step with the clock. The last clause's counter (n below 2^16, at
most one wrap pending) is the model's choice (log entry 10). A wrap still pending when the
counter has reached 0x8000 again is outside the read's correction, and nothing is said of it. -/
def Obligations.CorrectedReadIsTheClock : Prop :=
  ∀ (h : HwClock) (tau : Nat),
    (clockRepresents h tau = true → (h.ovf = true → h.tcnt.toNat < 0x8000) →
      correctedRead h = BitVec.ofNat 24 tau) ∧
    (clockRepresents { h with ovf := false } tau = true → 0x8000 ≤ h.tcnt.toNat →
      correctedRead h = BitVec.ofNat 24 tau) ∧
    (clockRepresents h tau = true → clockRepresents (hwTakeOverflow h) tau = h.ovf) ∧
    (∀ n, clockRepresents h tau = true → n < 0x10000 →
      (h.ovf = true → h.tcnt.toNat + n < 0x10000) →
      clockRepresents (hwAdvance n h) (tau + n) = true)

/-- R109: an alarm armed d cycles ahead on the 16-bit compare register and its extension count is
cleared at the match exactly d cycles after arming, as the abstract alarm is. That the handler runs in
the cycle of each match is the model's choice (log entry 10). -/
def Obligations.ExtendedAlarmElapsesOnTime : Prop :=
  ∀ (tau : Nat) (T : Time),
    1 ≤ distance24 T.toNat tau → distance24 T.toNat tau < 0x800000 →
    ∀ k, (hwAlarmRun tau (hwArm T (BitVec.ofNat 24 tau)) k).pending =
      decide (k < distance24 T.toNat tau)
end

