-- ==== Sys2Proof/Laws/Commutation.lean ====
section
/-! SUPPORT. The switches one phase at a time, the facts of the table of 42_commutation.md R140 that
make the order of its writes irrelevant, and what a commutation leaves in each group of the state. -/

namespace Sys2Proof.Machine

@[simp] theorem Switches.get_set (w : Switches) (p q : Phase) (v : SwState) :
    (w.set p v).get q = if q = p then v else w.get q := by
  cases p <;> cases q <;> rfl

@[simp] theorem Switches.get_setOpt (w : Switches) (p : Option Phase) (q : Phase) (v : SwState) :
    (w.setOpt p v).get q = if p = some q then v else w.get q := by
  cases p with
  | none => simp [Switches.setOpt]
  | some p => simp only [Switches.setOpt, Switches.get_set, Option.some.injEq, eq_comm]

@[simp] theorem Switches.get_allOff (q : Phase) : Switches.allOff.get q = .off := by
  cases q <;> rfl

/-- Three switches that agree phase by phase are the same. -/
theorem Switches.ext_get {v w : Switches} (h : ∀ q, v.get q = w.get q) : v = w := by
  have a := h .A; have b := h .B; have c := h .C
  cases v; cases w; simp_all [Switches.get]

theorem get_floatOld (w : Switches) (p : Option Phase) (n q : Phase) :
    (floatOld p n w).get q = if p = some q ∧ q ≠ n then .off else w.get q := by
  unfold floatOld; split
  · rename_i h; subst h; split
    · rename_i h; exact absurd (Option.some.inj h.1).symm h.2
    · rfl
  · rename_i h; rw [Switches.get_setOpt]; by_cases h₁ : p = some q
    · subst h₁; simp at h; simp [h]
    · simp [h₁]

/-- Every phase is one of three different ones. -/
theorem phase_cases (p a b c : Phase) : a ≠ b → a ≠ c → b ≠ c → p = a ∨ p = b ∨ p = c := by
  cases p <;> cases a <;> cases b <;> cases c <;> simp

/-- R140, R144: the three phases of a step are different. -/
theorem step_phases_ne (c : Config) (n : CommStep) :
    pwmPhaseOf c n ≠ fixedPhaseOf c n ∧ pwmPhaseOf c n ≠ floatPhase n ∧
      fixedPhaseOf c n ≠ floatPhase n := by
  unfold pwmPhaseOf fixedPhaseOf
  cases c.PWM_SIDE <;> cases n <;> decide

/-- R285(1): across a transition no phase changes from fixed to PWM or from PWM to fixed. -/
theorem successor_phases_ne (c : Config) (m : CommStep) :
    pwmPhaseOf c (successor c m) ≠ fixedPhaseOf c m ∧
      fixedPhaseOf c (successor c m) ≠ pwmPhaseOf c m := by
  unfold pwmPhaseOf fixedPhaseOf successor
  cases c.PWM_SIDE <;> cases c.REVERSE <;> cases m <;> decide

/-- R144: the two sides are opposite, and neither is OFF. -/
theorem sides_ne (c : Config) : sideP c ≠ sideF c ∧ sideP c ≠ .off ∧ sideF c ≠ .off := by
  unfold sideP sideF; cases c.PWM_SIDE <;> decide

/-- R143 as one update. -/
theorem settlePower_eq (s : State) : settlePower s = { s with
    wave.demagSkip := false
    wave.pwmSuppressed := s.wave.demagSkip && s.wave.pwmSuppressed
    start.goodies := if commutationPowered s then s.start.goodies else 0 } := by
  obtain ⟨_, _, _, _, _, _, ⟨_, _, _, _, _, _, p, _, _⟩, _, ⟨_, _, _, _, _, _, d⟩, _, _, _, _, _, _, _⟩ := s
  cases p <;> cases d <;> rfl

/-- What a commutation leaves in the commutation state. -/
theorem commutate_comm (s : State) : (commutate s).comm =
    { csm := .step (enteredStep s.cfg s.comm.csm)
      pwmPhase := some (pwmPhaseOf s.cfg (enteredStep s.cfg s.comm.csm))
      fixedPhase := some (fixedPhaseOf s.cfg (enteredStep s.cfg s.comm.csm))
      sensePhase := some (floatPhase (enteredStep s.cfg s.comm.csm))
      preLevel := preLevelOf (enteredStep s.cfg s.comm.csm) (previousStep s.cfg s.comm.csm) } := by
  simp only [commutate, settlePower_eq]; rfl

/-- Everything a commutation can change. -/
theorem commutate_frame (s : State) : commutate s = { s with
    comm := (commutate s).comm
    sw := (commutate s).sw
    wave.demagSkip := false
    wave.pwmSuppressed := s.wave.demagSkip && s.wave.pwmSuppressed
    start.goodies := if commutationPowered s then s.start.goodies else 0 } := by
  simp only [commutate, settlePower_eq]; rfl

/-- What a commutation leaves in the switches. -/
theorem commutate_sw (s : State) :
    (commutate s).sw =
      (floatOld s.comm.fixedPhase (fixedPhaseOf s.cfg (enteredStep s.cfg s.comm.csm))
        ((floatOld s.comm.pwmPhase (pwmPhaseOf s.cfg (enteredStep s.cfg s.comm.csm)) s.sw).set
          (pwmPhaseOf s.cfg (enteredStep s.cfg s.comm.csm))
          (if commutationPowered s && s.wave.pwmEnabled && s.wave.pwmOut then sideP s.cfg else .off))).set
        (fixedPhaseOf s.cfg (enteredStep s.cfg s.comm.csm))
        (if commutationPowered s then sideF s.cfg else .off) := by
  have hb : (commutationPowered s && s.wave.pwmEnabled && s.wave.pwmOut &&
      !(s.wave.demagSkip && s.wave.pwmSuppressed)) =
      (commutationPowered s && s.wave.pwmEnabled && s.wave.pwmOut) := by
    unfold commutationPowered; generalize s.wave.demagSkip = d; cases d <;> simp
  rw [← hb]
  simp only [commutate, settlePower_eq]; rfl

end Sys2Proof.Machine
end

