-- ==== Sys2Proof/Laws/Config.lean ====
section
/-! SUPPORT. What the constraints of 00_scope.md R6 say of the configuration a machine carries, in the
form arithmetic uses. -/

namespace Sys2Proof.Machine

/-- Every constraint of R6, of the configuration of any state. -/
theorem cfg_constraints (s : State) :
    2 ≤ s.cfg.POWER_RANGE.toNat ∧ s.cfg.POWER_RANGE.toNat ≤ 32768 ∧
    1 ≤ s.cfg.MAX_POWER.toNat ∧ s.cfg.MAX_POWER.toNat ≤ s.cfg.POWER_RANGE.toNat - 1 ∧
    2 * s.cfg.MAX_POWER.toNat ≤ 65535 ∧
    s.cfg.PWR_MIN_START.toNat ≤ s.cfg.MAX_POWER.toNat ∧
    s.cfg.PWR_COOL_START.toNat ≤ s.cfg.PWR_MAX_START.toNat ∧
    s.cfg.PWR_MAX_START.toNat ≤ s.cfg.MAX_POWER.toNat ∧
    1 ≤ s.cfg.ENOUGH_GOODIES.toNat ∧
    1 ≤ s.cfg.SKIP_TIMEOUT.toNat ∧ s.cfg.SKIP_TIMEOUT.toNat ≤ 0x7FFFFF ∧
    1 ≤ s.cfg.MIN_INTERVAL.toNat ∧
    1 ≤ s.cfg.ZC_FILTER_MIN.toNat ∧ s.cfg.ZC_FILTER_MIN.toNat ≤ s.cfg.ZC_FILTER_MAX.toNat ∧
    s.cfg.ADVANCE_DEGREES.toNat ≤ 30 ∧
    1 ≤ s.cfg.STALL_DELTA.toNat ∧ s.cfg.STALL_DELTA.toNat ≤ 0x7FFFFF ∧
    1 ≤ s.cfg.STALL_REPEATS.toNat ∧ 1 ≤ s.cfg.RC_TIMEOUT_CEIL.toNat := by
  have h := s.config.ok
  simp only [Config.valid, Bool.and_eq_true, decide_eq_true_eq] at h
  simp only [State.cfg]
  omega

end Sys2Proof.Machine
end

