-- ==== Sys2Proof/Laws/Duty.lean ====
section
/-! SUPPORT. What a recompute of the duty can change, what the PWM handler can change, and the length
of a waveform phase (44_duty_pwm.md). -/

namespace Sys2Proof.Machine

/-- Everything `writePlan` can change: the duty outputs, `pwmOut` and the switches. -/
theorem writePlan_frame (p : DutyPlan) (s : State) : writePlan p s = { s with
    duty.onTimeC := ~~~(toWord16 p.on)
    duty.offTimeC := ~~~(toWord16 p.off)
    duty.pwmMode := p.mode
    duty.fullPowerFlag := p.full
    duty.powerOnFlag := p.power
    wave.pwmOut := (writePlan p s).wave.pwmOut
    sw := (writePlan p s).sw } := by
  unfold writePlan; split
  · rfl
  · dsimp only; split <;> rfl
  · rfl
  · rfl

/-- Everything `recomputeDuty` can change. -/
theorem recomputeDuty_frame (s : State) : recomputeDuty s = { s with
    duty := (recomputeDuty s).duty
    wave.pwmOut := (recomputeDuty s).wave.pwmOut
    sw := (recomputeDuty s).sw } := by
  unfold recomputeDuty; dsimp only; rw [writePlan_frame]

@[simp] theorem recomputeDuty_commandedDuty (s : State) :
    (recomputeDuty s).duty.commandedDuty = s.duty.commandedDuty := by
  simp only [recomputeDuty]; rw [writePlan_frame]

@[simp] theorem recomputeDuty_rcTimeout (s : State) :
    (recomputeDuty s).duty.rcTimeout = s.duty.rcTimeout := by
  simp only [recomputeDuty]; rw [writePlan_frame]

@[simp] theorem recomputeDuty_dutyTracking (s : State) :
    (recomputeDuty s).duty.dutyTracking = s.duty.dutyTracking := by
  simp only [recomputeDuty]; rw [writePlan_frame]

@[simp] theorem recomputeDuty_pwmEnabled (s : State) :
    (recomputeDuty s).wave.pwmEnabled = s.wave.pwmEnabled := by
  simp only [recomputeDuty]; rw [writePlan_frame]

@[simp] theorem recomputeDuty_pwmSuppressed (s : State) :
    (recomputeDuty s).wave.pwmSuppressed = s.wave.pwmSuppressed := by
  simp only [recomputeDuty]; rw [writePlan_frame]

/-- A ceiling that the slow-throttle cap of a non-zero throttle lowers (R194). -/
theorem cappedCeiling_toNat (t : Nat) (c : Word16) (h : t ≠ 0) :
    (cappedCeiling t c).toNat = min c.toNat (2 * t) := by
  have := c.isLt
  simp [cappedCeiling, h, toWord16, Config.SLOW_THROTTLE_FLOOR]; omega

/-- The waveform's advance keeps the three bits other operations own. -/
theorem nextWave_frame (d : DutyState) (w : WaveState) :
    (nextWave d w).pwmEnabled = w.pwmEnabled ∧ (nextWave d w).pwmSuppressed = w.pwmSuppressed ∧
      (nextWave d w).demagSkip = w.demagSkip := by
  unfold nextWave advanceWave; split <;> (try split_ifs) <;> exact ⟨rfl, rfl, rfl⟩

/-- R201: a phase of duration n, begun with the reload and extension the handler writes, lasts n + 1
counter ticks. -/
theorem phaseTicks_of_duration (w : WaveState) (n : Word16)
    (h₁ : w.pwmReload = (~~~n).extractLsb' 0 8) (h₂ : w.pwmExt = n.extractLsb' 8 8) :
    phaseTicks w = n.toNat + 1 := by
  have := n.isLt
  have h : (~~~n).toNat = 65535 - n.toNat := by simp
  simp only [phaseTicks, h₁, h₂, BitVec.extractLsb'_toNat, h, Nat.shiftRight_eq_div_pow]
  omega

end Sys2Proof.Machine
end

