-- ==== Sys2Proof/Laws/Encoding.lean ====
section
/-! SUPPORT. The four fields of a packed word, and the opcode map as a two-way table. -/

namespace Sys2Proof

@[simp] theorem opcField_packWord (o b : Byte) (y x : Time) : opcField (packWord o b y x) = o := by
  unfold opcField packWord; ext i hi; simp; interval_cases i <;> simp

@[simp] theorem bField_packWord (o b : Byte) (y x : Time) : bField (packWord o b y x) = b := by
  unfold bField packWord; ext i hi; simp; interval_cases i <;> simp

@[simp] theorem yField_packWord (o b : Byte) (y x : Time) : yField (packWord o b y x) = y := by
  unfold yField packWord; ext i hi; simp; interval_cases i <;> simp

@[simp] theorem xField_packWord (o b : Byte) (y x : Time) : xField (packWord o b y x) = x := by
  unfold xField packWord; ext i hi; simp; interval_cases i <;> simp

/-- A word is its four fields (R76). -/
theorem packWord_fields (w : CmdWord) :
    packWord (opcField w) (bField w) (yField w) (xField w) = w := by
  unfold packWord opcField bField yField xField
  ext i hi
  simp
  interval_cases i <;> simp

@[simp] theorem opOfCode_code (o : Op) : opOfCode (opRow o).code = some o := by cases o <;> decide

theorem code_of_opOfCode {c : Byte} {o : Op} (h : opOfCode c = some o) : (opRow o).code = c := by
  have := List.find?_some h
  simpa using this

@[simp] theorem regOfAddr_addr (r : Reg) : regOfAddr r.addr = some r := by cases r <;> decide

theorem addr_of_regOfAddr {a : Byte} {r : Reg} (h : regOfAddr a = some r) : r.addr = a := by
  have := List.find?_some h
  simpa using this

end Sys2Proof
end

