-- ==== Sys2Proof/Laws/Packing.lean ====
section
/-! SUPPORT. Packed words bit by bit, and the one operation that narrows an integer to a register. -/

namespace Sys2Proof.Machine

/-- Bit k of a packed word is the k-th element of the list, 0 beyond it. -/
theorem packBits_testBit (l : List Bool) (k : Nat) : (packBits l).testBit k = l.getD k false := by
  induction l generalizing k with
  | nil => simp [packBits]
  | cons b bs ih =>
    cases k with
    | zero => cases b <;> simp [packBits, Nat.testBit_zero]
    | succ k =>
      have : packBits (b :: bs) / 2 = packBits bs := by cases b <;> simp [packBits] <;> omega
      rw [Nat.testBit_succ, this, ih]; simp

@[simp] theorem toWord16_toNat (n : Nat) : (toWord16 n).toNat = n % 0x10000 := by simp [toWord16]
@[simp] theorem toByte_toNat (n : Nat) : (toByte n).toNat = n % 0x100 := by simp [toByte]
@[simp] theorem toTime_toNat (n : Nat) : (toTime n).toNat = n % 0x1000000 := by simp [toTime]

end Sys2Proof.Machine
end

