-- ==== Sys2Proof/Laws/PerInstr.lean ====
section
/-! SUPPORT. Statements made per instruction: the four fields of an instruction's word are its code
and its operands, and the fields it does not take are zero (30_encoding.md R76, R77, R88(2)). -/

namespace Sys2Proof.Laws.EncodesFields

open Sys2Proof

/-- The word of i carries i's code and operands in the four fields, and no reserved bit. -/
def Statement (i : Instr) : Prop :=
  opcField (encode i) = (opRow i.op).code ∧ bField (encode i) = i.bOperand ∧
  yField (encode i) = i.yOperand ∧ xField (encode i) = i.xOperand ∧
  hasReservedBits (opRow i.op) (encode i) = false

/-- The fields, for every instruction; what is left per instruction is that no operand is too wide. -/
theorem of_widths (i : Instr)
    (hx : i.xOperand.toNat < 2 ^ (opRow i.op).xBits) (hy : i.yOperand.toNat < 2 ^ (opRow i.op).yBits)
    (hb : i.bOperand.toNat < 2 ^ (opRow i.op).bBits) : Statement i := by
  unfold Statement encode
  simp only [opcField_packWord, bField_packWord, yField_packWord, xField_packWord, true_and,
    hasReservedBits, Bool.or_eq_false_iff, decide_eq_false_iff_not, Nat.not_le]
  exact ⟨⟨hx, hy⟩, hb⟩

theorem armabs (a : Time) : Statement (.armabs a) := of_widths _ a.isLt Nat.one_pos Nat.one_pos
theorem armrel (a : Time) : Statement (.armrel a) := of_widths _ a.isLt Nat.one_pos Nat.one_pos
theorem waital : Statement .waital := of_widths _ Nat.one_pos Nat.one_pos Nat.one_pos
theorem now : Statement .now := of_widths _ Nat.one_pos Nat.one_pos Nat.one_pos
theorem recedge (a : Time) : Statement (.recedge a) := of_widths _ a.isLt Nat.one_pos Nat.one_pos
theorem predict (a : Byte) : Statement (.predict a) := of_widths _ Nat.one_pos Nat.one_pos a.isLt
theorem deg2t (a b : Time) (c : Byte) : Statement (.deg2t a b c) := of_widths _ a.isLt b.isLt c.isLt
theorem tlimit : Statement .tlimit := of_widths _ Nat.one_pos Nat.one_pos Nat.one_pos
theorem commut : Statement .commut := of_widths _ Nat.one_pos Nat.one_pos Nat.one_pos
theorem alloff : Statement .alloff := of_widths _ Nat.one_pos Nat.one_pos Nat.one_pos
theorem zcarm : Statement .zcarm := of_widths _ Nat.one_pos Nat.one_pos Nat.one_pos
theorem demagp : Statement .demagp := of_widths _ Nat.one_pos Nat.one_pos Nat.one_pos
theorem edgep : Statement .edgep := of_widths _ Nat.one_pos Nat.one_pos Nat.one_pos
theorem confirm : Statement .confirm := of_widths _ Nat.one_pos Nat.one_pos Nat.one_pos
theorem demagto : Statement .demagto := of_widths _ Nat.one_pos Nat.one_pos Nat.one_pos
theorem zcto : Statement .zcto := of_widths _ Nat.one_pos Nat.one_pos Nat.one_pos
theorem skiparm : Statement .skiparm := of_widths _ Nat.one_pos Nat.one_pos Nat.one_pos
theorem feedbk : Statement .feedbk := of_widths _ Nat.one_pos Nat.one_pos Nat.one_pos
theorem setthr (a : Word16) : Statement (.setthr a) := by
  refine of_widths _ ?_ Nat.one_pos Nat.one_pos
  have := a.isLt
  simp only [Instr.xOperand, Instr.op, opRow, BitVec.truncate_eq_setWidth, BitVec.toNat_setWidth]
  omega
theorem recomp : Statement .recomp := of_widths _ Nat.one_pos Nat.one_pos Nat.one_pos
theorem restart : Statement .restart := of_widths _ Nat.one_pos Nat.one_pos Nat.one_pos
theorem startfr : Statement .startfr := of_widths _ Nat.one_pos Nat.one_pos Nat.one_pos
theorem eval : Statement .eval := of_widths _ Nat.one_pos Nat.one_pos Nat.one_pos
theorem failed : Statement .failed := of_widths _ Nat.one_pos Nat.one_pos Nat.one_pos
theorem step : Statement .step := of_widths _ Nat.one_pos Nat.one_pos Nat.one_pos
theorem rdreg (a : Reg) : Statement (.rdreg a) := of_widths _ Nat.one_pos Nat.one_pos a.addr.isLt
theorem tick (a : Time) : Statement (.tick a) := of_widths _ a.isLt Nat.one_pos Nat.one_pos
theorem pwmovf : Statement .pwmovf := of_widths _ Nat.one_pos Nat.one_pos Nat.one_pos
theorem takeirq : Statement .takeirq := of_widths _ Nat.one_pos Nat.one_pos Nat.one_pos
theorem reset : Statement .reset := of_widths _ Nat.one_pos Nat.one_pos Nat.one_pos

end Sys2Proof.Laws.EncodesFields
end

