-- ==== Sys2Proof/Laws/Port.lean ====
section
/-! SUPPORT. Which word the hold of a wait lets past it (log entry 5), and what a step does with the
word at the head of the port. -/

namespace Sys2Proof.Machine

/-- No event word is found: none is presented. -/
theorem takeEventWord_none {ws : List CmdWord} (h : takeEventWord ws = none) :
    ∀ w ∈ ws, isEventWord w = false := by
  induction ws with
  | nil => simp
  | cons w ws ih =>
    unfold takeEventWord at h
    split at h
    · cases h
    · cases h₂ : takeEventWord ws with
      | none => simp_all
      | some p => rw [h₂] at h; cases h

/-- The event word found is the first one, and the other words keep their order. -/
theorem takeEventWord_some {ws rest : List CmdWord} {e : CmdWord}
    (h : takeEventWord ws = some (e, rest)) :
    isEventWord e = true ∧ (e :: rest).Perm ws ∧
      rest.filter (fun w => !isEventWord w) = ws.filter (fun w => !isEventWord w) ∧
      ws.filter isEventWord = e :: rest.filter isEventWord := by
  induction ws generalizing rest with
  | nil => cases h
  | cons w ws ih =>
    unfold takeEventWord at h
    split at h
    · rename_i hw; cases h; simp [hw]
    · rename_i hw
      cases h₂ : takeEventWord ws with
      | none => rw [h₂] at h; cases h
      | some p =>
        obtain ⟨e', r'⟩ := p
        rw [h₂] at h; cases h
        obtain ⟨i₁, i₂, i₃, i₄⟩ := ih h₂
        exact ⟨i₁, (List.Perm.swap _ _ _).trans (i₂.cons w), by simp [hw, i₃], by simp [hw, i₄]⟩

@[simp] theorem nextWord_nil {s : State} (h : s.env.port = []) : nextWord s = .idle := by
  simp [nextWord, h]

theorem nextWord_ok {s : State} {w : CmdWord} {rest : List CmdWord} {i : Instr}
    (h : s.env.port = w :: rest) (hd : decode w = .ok i) :
    nextWord s = .run i { s with env.port := rest } := by
  simp [nextWord, h, hd]

theorem nextWord_error {s : State} {w : CmdWord} {rest : List CmdWord} {r : PortRefusal}
    (h : s.env.port = w :: rest) (hd : decode w = .error r) :
    nextWord s = .refused r { s with env.port := rest } := by
  simp [nextWord, h, hd]

@[simp] theorem presentWord_port (w : CmdWord) (s : State) :
    (presentWord w s).env.port = w :: s.env.port := rfl

end Sys2Proof.Machine
end

