-- ==== Sys2Proof/Laws/State.lean ====
section
/-! SUPPORT. Which groups of the state an operation leaves alone: one lemma per operation and group,
for the simplifier, so that no later proof unfolds a record update. -/

namespace Sys2Proof.Machine

variable (s : State)

/-- The parameters are those of the configuration the machine carries. -/
@[simp] theorem cfg_eq : s.cfg = s.config.val := rfl

/-! ### raise -/

@[simp] theorem raise_tau (e : Event) : (raise e s).tau = s.tau := rfl
@[simp] theorem raise_alarm (e : Event) : (raise e s).alarm = s.alarm := rfl
@[simp] theorem raise_irq (e : Event) : (raise e s).irq = s.irq := rfl
@[simp] theorem raise_timing (e : Event) : (raise e s).timing = s.timing := rfl
@[simp] theorem raise_comm (e : Event) : (raise e s).comm = s.comm := rfl
@[simp] theorem raise_zc (e : Event) : (raise e s).zc = s.zc := rfl
@[simp] theorem raise_duty (e : Event) : (raise e s).duty = s.duty := rfl
@[simp] theorem raise_beaconCount (e : Event) : (raise e s).beaconCount = s.beaconCount := rfl
@[simp] theorem raise_wave (e : Event) : (raise e s).wave = s.wave := rfl
@[simp] theorem raise_ind (e : Event) : (raise e s).ind = s.ind := rfl
@[simp] theorem raise_sw (e : Event) : (raise e s).sw = s.sw := rfl
@[simp] theorem raise_start (e : Event) : (raise e s).start = s.start := rfl
@[simp] theorem raise_seq (e : Event) : (raise e s).seq = s.seq := rfl
@[simp] theorem raise_config (e : Event) : (raise e s).config = s.config := rfl
@[simp] theorem raise_env (e : Event) : (raise e s).env = s.env := rfl

/-! ### setRes -/

@[simp] theorem setRes_tau (v : Time) : (setRes v s).tau = s.tau := rfl
@[simp] theorem setRes_alarm (v : Time) : (setRes v s).alarm = s.alarm := rfl
@[simp] theorem setRes_irq (v : Time) : (setRes v s).irq = s.irq := rfl
@[simp] theorem setRes_timing (v : Time) : (setRes v s).timing = s.timing := rfl
@[simp] theorem setRes_comm (v : Time) : (setRes v s).comm = s.comm := rfl
@[simp] theorem setRes_zc (v : Time) : (setRes v s).zc = s.zc := rfl
@[simp] theorem setRes_duty (v : Time) : (setRes v s).duty = s.duty := rfl
@[simp] theorem setRes_beaconCount (v : Time) : (setRes v s).beaconCount = s.beaconCount := rfl
@[simp] theorem setRes_wave (v : Time) : (setRes v s).wave = s.wave := rfl
@[simp] theorem setRes_ind (v : Time) : (setRes v s).ind = s.ind := rfl
@[simp] theorem setRes_sw (v : Time) : (setRes v s).sw = s.sw := rfl
@[simp] theorem setRes_start (v : Time) : (setRes v s).start = s.start := rfl
@[simp] theorem setRes_seq (v : Time) : (setRes v s).seq = s.seq := rfl
@[simp] theorem setRes_config (v : Time) : (setRes v s).config = s.config := rfl
@[simp] theorem setRes_env (v : Time) : (setRes v s).env = s.env := rfl

/-! ### refuseWord -/

@[simp] theorem refuseWord_tau (r : PortRefusal) : (refuseWord r s).tau = s.tau := rfl
@[simp] theorem refuseWord_alarm (r : PortRefusal) : (refuseWord r s).alarm = s.alarm := rfl
@[simp] theorem refuseWord_irq (r : PortRefusal) : (refuseWord r s).irq = s.irq := rfl
@[simp] theorem refuseWord_timing (r : PortRefusal) : (refuseWord r s).timing = s.timing := rfl
@[simp] theorem refuseWord_comm (r : PortRefusal) : (refuseWord r s).comm = s.comm := rfl
@[simp] theorem refuseWord_zc (r : PortRefusal) : (refuseWord r s).zc = s.zc := rfl
@[simp] theorem refuseWord_duty (r : PortRefusal) : (refuseWord r s).duty = s.duty := rfl
@[simp] theorem refuseWord_beaconCount (r : PortRefusal) : (refuseWord r s).beaconCount = s.beaconCount := rfl
@[simp] theorem refuseWord_wave (r : PortRefusal) : (refuseWord r s).wave = s.wave := rfl
@[simp] theorem refuseWord_ind (r : PortRefusal) : (refuseWord r s).ind = s.ind := rfl
@[simp] theorem refuseWord_sw (r : PortRefusal) : (refuseWord r s).sw = s.sw := rfl
@[simp] theorem refuseWord_start (r : PortRefusal) : (refuseWord r s).start = s.start := rfl
@[simp] theorem refuseWord_seq (r : PortRefusal) : (refuseWord r s).seq = s.seq := rfl
@[simp] theorem refuseWord_config (r : PortRefusal) : (refuseWord r s).config = s.config := rfl
@[simp] theorem refuseWord_env (r : PortRefusal) : (refuseWord r s).env = s.env := rfl

/-! ### drivePwmPhase -/

@[simp] theorem drivePwmPhase_tau (v : SwState) : (drivePwmPhase v s).tau = s.tau := rfl
@[simp] theorem drivePwmPhase_alarm (v : SwState) : (drivePwmPhase v s).alarm = s.alarm := rfl
@[simp] theorem drivePwmPhase_irq (v : SwState) : (drivePwmPhase v s).irq = s.irq := rfl
@[simp] theorem drivePwmPhase_timing (v : SwState) : (drivePwmPhase v s).timing = s.timing := rfl
@[simp] theorem drivePwmPhase_comm (v : SwState) : (drivePwmPhase v s).comm = s.comm := rfl
@[simp] theorem drivePwmPhase_zc (v : SwState) : (drivePwmPhase v s).zc = s.zc := rfl
@[simp] theorem drivePwmPhase_duty (v : SwState) : (drivePwmPhase v s).duty = s.duty := rfl
@[simp] theorem drivePwmPhase_beaconCount (v : SwState) : (drivePwmPhase v s).beaconCount = s.beaconCount := rfl
@[simp] theorem drivePwmPhase_wave (v : SwState) : (drivePwmPhase v s).wave = s.wave := rfl
@[simp] theorem drivePwmPhase_ind (v : SwState) : (drivePwmPhase v s).ind = s.ind := rfl
@[simp] theorem drivePwmPhase_start (v : SwState) : (drivePwmPhase v s).start = s.start := rfl
@[simp] theorem drivePwmPhase_seq (v : SwState) : (drivePwmPhase v s).seq = s.seq := rfl
@[simp] theorem drivePwmPhase_status (v : SwState) : (drivePwmPhase v s).status = s.status := rfl
@[simp] theorem drivePwmPhase_config (v : SwState) : (drivePwmPhase v s).config = s.config := rfl
@[simp] theorem drivePwmPhase_env (v : SwState) : (drivePwmPhase v s).env = s.env := rfl

/-! ### armAbsolute -/

@[simp] theorem armAbsolute_tau (T : Time) : (armAbsolute T s).tau = s.tau := rfl
@[simp] theorem armAbsolute_timing (T : Time) : (armAbsolute T s).timing = s.timing := rfl
@[simp] theorem armAbsolute_comm (T : Time) : (armAbsolute T s).comm = s.comm := rfl
@[simp] theorem armAbsolute_zc (T : Time) : (armAbsolute T s).zc = s.zc := rfl
@[simp] theorem armAbsolute_duty (T : Time) : (armAbsolute T s).duty = s.duty := rfl
@[simp] theorem armAbsolute_beaconCount (T : Time) : (armAbsolute T s).beaconCount = s.beaconCount := rfl
@[simp] theorem armAbsolute_wave (T : Time) : (armAbsolute T s).wave = s.wave := rfl
@[simp] theorem armAbsolute_ind (T : Time) : (armAbsolute T s).ind = s.ind := rfl
@[simp] theorem armAbsolute_sw (T : Time) : (armAbsolute T s).sw = s.sw := rfl
@[simp] theorem armAbsolute_start (T : Time) : (armAbsolute T s).start = s.start := rfl
@[simp] theorem armAbsolute_seq (T : Time) : (armAbsolute T s).seq = s.seq := rfl
@[simp] theorem armAbsolute_status (T : Time) : (armAbsolute T s).status = s.status := rfl
@[simp] theorem armAbsolute_config (T : Time) : (armAbsolute T s).config = s.config := rfl
@[simp] theorem armAbsolute_env (T : Time) : (armAbsolute T s).env = s.env := rfl

/-! ### armRelative -/

@[simp] theorem armRelative_tau (d : Time) : (armRelative d s).tau = s.tau := rfl
@[simp] theorem armRelative_timing (d : Time) : (armRelative d s).timing = s.timing := rfl
@[simp] theorem armRelative_comm (d : Time) : (armRelative d s).comm = s.comm := rfl
@[simp] theorem armRelative_zc (d : Time) : (armRelative d s).zc = s.zc := rfl
@[simp] theorem armRelative_duty (d : Time) : (armRelative d s).duty = s.duty := rfl
@[simp] theorem armRelative_beaconCount (d : Time) : (armRelative d s).beaconCount = s.beaconCount := rfl
@[simp] theorem armRelative_wave (d : Time) : (armRelative d s).wave = s.wave := rfl
@[simp] theorem armRelative_ind (d : Time) : (armRelative d s).ind = s.ind := rfl
@[simp] theorem armRelative_sw (d : Time) : (armRelative d s).sw = s.sw := rfl
@[simp] theorem armRelative_start (d : Time) : (armRelative d s).start = s.start := rfl
@[simp] theorem armRelative_seq (d : Time) : (armRelative d s).seq = s.seq := rfl
@[simp] theorem armRelative_status (d : Time) : (armRelative d s).status = s.status := rfl
@[simp] theorem armRelative_config (d : Time) : (armRelative d s).config = s.config := rfl
@[simp] theorem armRelative_env (d : Time) : (armRelative d s).env = s.env := rfl

/-! ### advanceClock -/

@[simp] theorem advanceClock_alarm (n : Nat) : (advanceClock n s).alarm = s.alarm := rfl
@[simp] theorem advanceClock_timing (n : Nat) : (advanceClock n s).timing = s.timing := rfl
@[simp] theorem advanceClock_comm (n : Nat) : (advanceClock n s).comm = s.comm := rfl
@[simp] theorem advanceClock_zc (n : Nat) : (advanceClock n s).zc = s.zc := rfl
@[simp] theorem advanceClock_duty (n : Nat) : (advanceClock n s).duty = s.duty := rfl
@[simp] theorem advanceClock_beaconCount (n : Nat) : (advanceClock n s).beaconCount = s.beaconCount := rfl
@[simp] theorem advanceClock_wave (n : Nat) : (advanceClock n s).wave = s.wave := rfl
@[simp] theorem advanceClock_ind (n : Nat) : (advanceClock n s).ind = s.ind := rfl
@[simp] theorem advanceClock_sw (n : Nat) : (advanceClock n s).sw = s.sw := rfl
@[simp] theorem advanceClock_start (n : Nat) : (advanceClock n s).start = s.start := rfl
@[simp] theorem advanceClock_seq (n : Nat) : (advanceClock n s).seq = s.seq := rfl
@[simp] theorem advanceClock_status (n : Nat) : (advanceClock n s).status = s.status := rfl
@[simp] theorem advanceClock_config (n : Nat) : (advanceClock n s).config = s.config := rfl
@[simp] theorem advanceClock_env (n : Nat) : (advanceClock n s).env = s.env := rfl

/-! ### pwmHandler -/

@[simp] theorem pwmHandler_tau : (pwmHandler s).tau = s.tau := by unfold pwmHandler; split <;> rfl
@[simp] theorem pwmHandler_alarm : (pwmHandler s).alarm = s.alarm := by unfold pwmHandler; split <;> rfl
@[simp] theorem pwmHandler_irq : (pwmHandler s).irq = s.irq := by unfold pwmHandler; split <;> rfl
@[simp] theorem pwmHandler_timing : (pwmHandler s).timing = s.timing := by unfold pwmHandler; split <;> rfl
@[simp] theorem pwmHandler_comm : (pwmHandler s).comm = s.comm := by unfold pwmHandler; split <;> rfl
@[simp] theorem pwmHandler_zc : (pwmHandler s).zc = s.zc := by unfold pwmHandler; split <;> rfl
@[simp] theorem pwmHandler_duty : (pwmHandler s).duty = s.duty := by unfold pwmHandler; split <;> rfl
@[simp] theorem pwmHandler_beaconCount : (pwmHandler s).beaconCount = s.beaconCount := by unfold pwmHandler; split <;> rfl
@[simp] theorem pwmHandler_ind : (pwmHandler s).ind = s.ind := by unfold pwmHandler; split <;> rfl
@[simp] theorem pwmHandler_start : (pwmHandler s).start = s.start := by unfold pwmHandler; split <;> rfl
@[simp] theorem pwmHandler_seq : (pwmHandler s).seq = s.seq := by unfold pwmHandler; split <;> rfl
@[simp] theorem pwmHandler_status : (pwmHandler s).status = s.status := by unfold pwmHandler; split <;> rfl
@[simp] theorem pwmHandler_config : (pwmHandler s).config = s.config := by unfold pwmHandler; split <;> rfl
@[simp] theorem pwmHandler_env : (pwmHandler s).env = s.env := by unfold pwmHandler; split <;> rfl

/-! ### compareHandler -/

@[simp] theorem compareHandler_tau : (compareHandler s).tau = s.tau := rfl
@[simp] theorem compareHandler_irq : (compareHandler s).irq = s.irq := rfl
@[simp] theorem compareHandler_timing : (compareHandler s).timing = s.timing := rfl
@[simp] theorem compareHandler_comm : (compareHandler s).comm = s.comm := rfl
@[simp] theorem compareHandler_zc : (compareHandler s).zc = s.zc := rfl
@[simp] theorem compareHandler_duty : (compareHandler s).duty = s.duty := rfl
@[simp] theorem compareHandler_beaconCount : (compareHandler s).beaconCount = s.beaconCount := rfl
@[simp] theorem compareHandler_wave : (compareHandler s).wave = s.wave := rfl
@[simp] theorem compareHandler_ind : (compareHandler s).ind = s.ind := rfl
@[simp] theorem compareHandler_sw : (compareHandler s).sw = s.sw := rfl
@[simp] theorem compareHandler_start : (compareHandler s).start = s.start := rfl
@[simp] theorem compareHandler_seq : (compareHandler s).seq = s.seq := rfl
@[simp] theorem compareHandler_status : (compareHandler s).status = s.status := rfl
@[simp] theorem compareHandler_config : (compareHandler s).config = s.config := rfl
@[simp] theorem compareHandler_env : (compareHandler s).env = s.env := rfl

/-! ### overflowHandler -/

@[simp] theorem overflowHandler_tau : (overflowHandler s).tau = s.tau := rfl
@[simp] theorem overflowHandler_alarm : (overflowHandler s).alarm = s.alarm := rfl
@[simp] theorem overflowHandler_irq : (overflowHandler s).irq = s.irq := rfl
@[simp] theorem overflowHandler_timing : (overflowHandler s).timing = s.timing := rfl
@[simp] theorem overflowHandler_comm : (overflowHandler s).comm = s.comm := rfl
@[simp] theorem overflowHandler_zc : (overflowHandler s).zc = s.zc := rfl
@[simp] theorem overflowHandler_duty : (overflowHandler s).duty = s.duty := rfl
@[simp] theorem overflowHandler_wave : (overflowHandler s).wave = s.wave := rfl
@[simp] theorem overflowHandler_ind : (overflowHandler s).ind = s.ind := rfl
@[simp] theorem overflowHandler_sw : (overflowHandler s).sw = s.sw := rfl
@[simp] theorem overflowHandler_start : (overflowHandler s).start = s.start := rfl
@[simp] theorem overflowHandler_seq : (overflowHandler s).seq = s.seq := rfl
@[simp] theorem overflowHandler_status : (overflowHandler s).status = s.status := rfl
@[simp] theorem overflowHandler_config : (overflowHandler s).config = s.config := rfl
@[simp] theorem overflowHandler_env : (overflowHandler s).env = s.env := rfl

/-! ### takePwm -/

@[simp] theorem takePwm_tau : (takePwm s).tau = s.tau := by simp [takePwm]
@[simp] theorem takePwm_alarm : (takePwm s).alarm = s.alarm := by simp [takePwm]
@[simp] theorem takePwm_timing : (takePwm s).timing = s.timing := by simp [takePwm]
@[simp] theorem takePwm_comm : (takePwm s).comm = s.comm := by simp [takePwm]
@[simp] theorem takePwm_zc : (takePwm s).zc = s.zc := by simp [takePwm]
@[simp] theorem takePwm_duty : (takePwm s).duty = s.duty := by simp [takePwm]
@[simp] theorem takePwm_beaconCount : (takePwm s).beaconCount = s.beaconCount := by simp [takePwm]
@[simp] theorem takePwm_ind : (takePwm s).ind = s.ind := by simp [takePwm]
@[simp] theorem takePwm_start : (takePwm s).start = s.start := by simp [takePwm]
@[simp] theorem takePwm_seq : (takePwm s).seq = s.seq := by simp [takePwm]
@[simp] theorem takePwm_status : (takePwm s).status = s.status := by simp [takePwm]
@[simp] theorem takePwm_config : (takePwm s).config = s.config := by simp [takePwm]
@[simp] theorem takePwm_env : (takePwm s).env = s.env := by simp [takePwm]

/-! ### takeCmp -/

@[simp] theorem takeCmp_tau : (takeCmp s).tau = s.tau := rfl
@[simp] theorem takeCmp_timing : (takeCmp s).timing = s.timing := rfl
@[simp] theorem takeCmp_comm : (takeCmp s).comm = s.comm := rfl
@[simp] theorem takeCmp_zc : (takeCmp s).zc = s.zc := rfl
@[simp] theorem takeCmp_duty : (takeCmp s).duty = s.duty := rfl
@[simp] theorem takeCmp_beaconCount : (takeCmp s).beaconCount = s.beaconCount := rfl
@[simp] theorem takeCmp_wave : (takeCmp s).wave = s.wave := rfl
@[simp] theorem takeCmp_ind : (takeCmp s).ind = s.ind := rfl
@[simp] theorem takeCmp_sw : (takeCmp s).sw = s.sw := rfl
@[simp] theorem takeCmp_start : (takeCmp s).start = s.start := rfl
@[simp] theorem takeCmp_seq : (takeCmp s).seq = s.seq := rfl
@[simp] theorem takeCmp_status : (takeCmp s).status = s.status := rfl
@[simp] theorem takeCmp_config : (takeCmp s).config = s.config := rfl
@[simp] theorem takeCmp_env : (takeCmp s).env = s.env := rfl

/-! ### takeOvf -/

@[simp] theorem takeOvf_tau : (takeOvf s).tau = s.tau := rfl
@[simp] theorem takeOvf_alarm : (takeOvf s).alarm = s.alarm := rfl
@[simp] theorem takeOvf_timing : (takeOvf s).timing = s.timing := rfl
@[simp] theorem takeOvf_comm : (takeOvf s).comm = s.comm := rfl
@[simp] theorem takeOvf_zc : (takeOvf s).zc = s.zc := rfl
@[simp] theorem takeOvf_duty : (takeOvf s).duty = s.duty := rfl
@[simp] theorem takeOvf_wave : (takeOvf s).wave = s.wave := rfl
@[simp] theorem takeOvf_ind : (takeOvf s).ind = s.ind := rfl
@[simp] theorem takeOvf_sw : (takeOvf s).sw = s.sw := rfl
@[simp] theorem takeOvf_start : (takeOvf s).start = s.start := rfl
@[simp] theorem takeOvf_seq : (takeOvf s).seq = s.seq := rfl
@[simp] theorem takeOvf_status : (takeOvf s).status = s.status := rfl
@[simp] theorem takeOvf_config : (takeOvf s).config = s.config := rfl
@[simp] theorem takeOvf_env : (takeOvf s).env = s.env := rfl

/-! ### takeIrq -/

@[simp] theorem takeIrq_tau : ((takeIrq s).2).tau = s.tau := by unfold takeIrq; split_ifs <;> simp
@[simp] theorem takeIrq_timing : ((takeIrq s).2).timing = s.timing := by unfold takeIrq; split_ifs <;> simp
@[simp] theorem takeIrq_comm : ((takeIrq s).2).comm = s.comm := by unfold takeIrq; split_ifs <;> simp
@[simp] theorem takeIrq_zc : ((takeIrq s).2).zc = s.zc := by unfold takeIrq; split_ifs <;> simp
@[simp] theorem takeIrq_duty : ((takeIrq s).2).duty = s.duty := by unfold takeIrq; split_ifs <;> simp
@[simp] theorem takeIrq_ind : ((takeIrq s).2).ind = s.ind := by unfold takeIrq; split_ifs <;> simp
@[simp] theorem takeIrq_start : ((takeIrq s).2).start = s.start := by unfold takeIrq; split_ifs <;> simp
@[simp] theorem takeIrq_seq : ((takeIrq s).2).seq = s.seq := by unfold takeIrq; split_ifs <;> simp
@[simp] theorem takeIrq_status : ((takeIrq s).2).status = s.status := by unfold takeIrq; split_ifs <;> simp
@[simp] theorem takeIrq_config : ((takeIrq s).2).config = s.config := by unfold takeIrq; split_ifs <;> simp
@[simp] theorem takeIrq_env : ((takeIrq s).2).env = s.env := by unfold takeIrq; split_ifs <;> simp

/-! ### holdInstr -/

@[simp] theorem holdInstr_tau (i : Instr) : (holdInstr i s).tau = s.tau := rfl
@[simp] theorem holdInstr_alarm (i : Instr) : (holdInstr i s).alarm = s.alarm := rfl
@[simp] theorem holdInstr_irq (i : Instr) : (holdInstr i s).irq = s.irq := rfl
@[simp] theorem holdInstr_timing (i : Instr) : (holdInstr i s).timing = s.timing := rfl
@[simp] theorem holdInstr_comm (i : Instr) : (holdInstr i s).comm = s.comm := rfl
@[simp] theorem holdInstr_zc (i : Instr) : (holdInstr i s).zc = s.zc := rfl
@[simp] theorem holdInstr_duty (i : Instr) : (holdInstr i s).duty = s.duty := rfl
@[simp] theorem holdInstr_beaconCount (i : Instr) : (holdInstr i s).beaconCount = s.beaconCount := rfl
@[simp] theorem holdInstr_wave (i : Instr) : (holdInstr i s).wave = s.wave := rfl
@[simp] theorem holdInstr_ind (i : Instr) : (holdInstr i s).ind = s.ind := rfl
@[simp] theorem holdInstr_sw (i : Instr) : (holdInstr i s).sw = s.sw := rfl
@[simp] theorem holdInstr_start (i : Instr) : (holdInstr i s).start = s.start := rfl
@[simp] theorem holdInstr_seq (i : Instr) : (holdInstr i s).seq = s.seq := rfl
@[simp] theorem holdInstr_status (i : Instr) : (holdInstr i s).status = s.status := rfl
@[simp] theorem holdInstr_config (i : Instr) : (holdInstr i s).config = s.config := rfl

/-! ### presentWord -/

@[simp] theorem presentWord_tau (w : CmdWord) : (presentWord w s).tau = s.tau := rfl
@[simp] theorem presentWord_alarm (w : CmdWord) : (presentWord w s).alarm = s.alarm := rfl
@[simp] theorem presentWord_irq (w : CmdWord) : (presentWord w s).irq = s.irq := rfl
@[simp] theorem presentWord_timing (w : CmdWord) : (presentWord w s).timing = s.timing := rfl
@[simp] theorem presentWord_comm (w : CmdWord) : (presentWord w s).comm = s.comm := rfl
@[simp] theorem presentWord_zc (w : CmdWord) : (presentWord w s).zc = s.zc := rfl
@[simp] theorem presentWord_duty (w : CmdWord) : (presentWord w s).duty = s.duty := rfl
@[simp] theorem presentWord_beaconCount (w : CmdWord) : (presentWord w s).beaconCount = s.beaconCount := rfl
@[simp] theorem presentWord_wave (w : CmdWord) : (presentWord w s).wave = s.wave := rfl
@[simp] theorem presentWord_ind (w : CmdWord) : (presentWord w s).ind = s.ind := rfl
@[simp] theorem presentWord_sw (w : CmdWord) : (presentWord w s).sw = s.sw := rfl
@[simp] theorem presentWord_start (w : CmdWord) : (presentWord w s).start = s.start := rfl
@[simp] theorem presentWord_seq (w : CmdWord) : (presentWord w s).seq = s.seq := rfl
@[simp] theorem presentWord_status (w : CmdWord) : (presentWord w s).status = s.status := rfl
@[simp] theorem presentWord_config (w : CmdWord) : (presentWord w s).config = s.config := rfl

/-! ### recordEdge -/

@[simp] theorem recordEdge_tau (T : Time) : (recordEdge T s).tau = s.tau := by unfold recordEdge; dsimp only; split <;> rfl
@[simp] theorem recordEdge_alarm (T : Time) : (recordEdge T s).alarm = s.alarm := by unfold recordEdge; dsimp only; split <;> rfl
@[simp] theorem recordEdge_irq (T : Time) : (recordEdge T s).irq = s.irq := by unfold recordEdge; dsimp only; split <;> rfl
@[simp] theorem recordEdge_comm (T : Time) : (recordEdge T s).comm = s.comm := by unfold recordEdge; dsimp only; split <;> rfl
@[simp] theorem recordEdge_zc (T : Time) : (recordEdge T s).zc = s.zc := by unfold recordEdge; dsimp only; split <;> rfl
@[simp] theorem recordEdge_beaconCount (T : Time) : (recordEdge T s).beaconCount = s.beaconCount := by unfold recordEdge; dsimp only; split <;> rfl
@[simp] theorem recordEdge_wave (T : Time) : (recordEdge T s).wave = s.wave := by unfold recordEdge; dsimp only; split <;> rfl
@[simp] theorem recordEdge_ind (T : Time) : (recordEdge T s).ind = s.ind := by unfold recordEdge; dsimp only; split <;> rfl
@[simp] theorem recordEdge_sw (T : Time) : (recordEdge T s).sw = s.sw := by unfold recordEdge; dsimp only; split <;> rfl
@[simp] theorem recordEdge_start (T : Time) : (recordEdge T s).start = s.start := by unfold recordEdge; dsimp only; split <;> rfl
@[simp] theorem recordEdge_seq (T : Time) : (recordEdge T s).seq = s.seq := by unfold recordEdge; dsimp only; split <;> rfl
@[simp] theorem recordEdge_config (T : Time) : (recordEdge T s).config = s.config := by unfold recordEdge; dsimp only; split <;> rfl
@[simp] theorem recordEdge_env (T : Time) : (recordEdge T s).env = s.env := by unfold recordEdge; dsimp only; split <;> rfl

/-! ### computeTimingDutyLimit -/

@[simp] theorem computeTimingDutyLimit_tau : (computeTimingDutyLimit s).tau = s.tau := rfl
@[simp] theorem computeTimingDutyLimit_alarm : (computeTimingDutyLimit s).alarm = s.alarm := rfl
@[simp] theorem computeTimingDutyLimit_irq : (computeTimingDutyLimit s).irq = s.irq := rfl
@[simp] theorem computeTimingDutyLimit_comm : (computeTimingDutyLimit s).comm = s.comm := rfl
@[simp] theorem computeTimingDutyLimit_zc : (computeTimingDutyLimit s).zc = s.zc := rfl
@[simp] theorem computeTimingDutyLimit_duty : (computeTimingDutyLimit s).duty = s.duty := rfl
@[simp] theorem computeTimingDutyLimit_beaconCount : (computeTimingDutyLimit s).beaconCount = s.beaconCount := rfl
@[simp] theorem computeTimingDutyLimit_wave : (computeTimingDutyLimit s).wave = s.wave := rfl
@[simp] theorem computeTimingDutyLimit_ind : (computeTimingDutyLimit s).ind = s.ind := rfl
@[simp] theorem computeTimingDutyLimit_sw : (computeTimingDutyLimit s).sw = s.sw := rfl
@[simp] theorem computeTimingDutyLimit_start : (computeTimingDutyLimit s).start = s.start := rfl
@[simp] theorem computeTimingDutyLimit_seq : (computeTimingDutyLimit s).seq = s.seq := rfl
@[simp] theorem computeTimingDutyLimit_status : (computeTimingDutyLimit s).status = s.status := rfl
@[simp] theorem computeTimingDutyLimit_config : (computeTimingDutyLimit s).config = s.config := rfl
@[simp] theorem computeTimingDutyLimit_env : (computeTimingDutyLimit s).env = s.env := rfl

/-! ### selectSense -/

@[simp] theorem selectSense_tau (N P : CommStep) : (selectSense N P s).tau = s.tau := rfl
@[simp] theorem selectSense_alarm (N P : CommStep) : (selectSense N P s).alarm = s.alarm := rfl
@[simp] theorem selectSense_irq (N P : CommStep) : (selectSense N P s).irq = s.irq := rfl
@[simp] theorem selectSense_timing (N P : CommStep) : (selectSense N P s).timing = s.timing := rfl
@[simp] theorem selectSense_zc (N P : CommStep) : (selectSense N P s).zc = s.zc := rfl
@[simp] theorem selectSense_duty (N P : CommStep) : (selectSense N P s).duty = s.duty := rfl
@[simp] theorem selectSense_beaconCount (N P : CommStep) : (selectSense N P s).beaconCount = s.beaconCount := rfl
@[simp] theorem selectSense_wave (N P : CommStep) : (selectSense N P s).wave = s.wave := rfl
@[simp] theorem selectSense_ind (N P : CommStep) : (selectSense N P s).ind = s.ind := rfl
@[simp] theorem selectSense_sw (N P : CommStep) : (selectSense N P s).sw = s.sw := rfl
@[simp] theorem selectSense_start (N P : CommStep) : (selectSense N P s).start = s.start := rfl
@[simp] theorem selectSense_seq (N P : CommStep) : (selectSense N P s).seq = s.seq := rfl
@[simp] theorem selectSense_status (N P : CommStep) : (selectSense N P s).status = s.status := rfl
@[simp] theorem selectSense_config (N P : CommStep) : (selectSense N P s).config = s.config := rfl
@[simp] theorem selectSense_env (N P : CommStep) : (selectSense N P s).env = s.env := rfl

/-! ### settlePower -/

@[simp] theorem settlePower_tau : (settlePower s).tau = s.tau := by unfold settlePower; dsimp only; split <;> split <;> rfl
@[simp] theorem settlePower_alarm : (settlePower s).alarm = s.alarm := by unfold settlePower; dsimp only; split <;> split <;> rfl
@[simp] theorem settlePower_irq : (settlePower s).irq = s.irq := by unfold settlePower; dsimp only; split <;> split <;> rfl
@[simp] theorem settlePower_timing : (settlePower s).timing = s.timing := by unfold settlePower; dsimp only; split <;> split <;> rfl
@[simp] theorem settlePower_comm : (settlePower s).comm = s.comm := by unfold settlePower; dsimp only; split <;> split <;> rfl
@[simp] theorem settlePower_zc : (settlePower s).zc = s.zc := by unfold settlePower; dsimp only; split <;> split <;> rfl
@[simp] theorem settlePower_duty : (settlePower s).duty = s.duty := by unfold settlePower; dsimp only; split <;> split <;> rfl
@[simp] theorem settlePower_beaconCount : (settlePower s).beaconCount = s.beaconCount := by unfold settlePower; dsimp only; split <;> split <;> rfl
@[simp] theorem settlePower_ind : (settlePower s).ind = s.ind := by unfold settlePower; dsimp only; split <;> split <;> rfl
@[simp] theorem settlePower_sw : (settlePower s).sw = s.sw := by unfold settlePower; dsimp only; split <;> split <;> rfl
@[simp] theorem settlePower_seq : (settlePower s).seq = s.seq := by unfold settlePower; dsimp only; split <;> split <;> rfl
@[simp] theorem settlePower_status : (settlePower s).status = s.status := by unfold settlePower; dsimp only; split <;> split <;> rfl
@[simp] theorem settlePower_config : (settlePower s).config = s.config := by unfold settlePower; dsimp only; split <;> split <;> rfl
@[simp] theorem settlePower_env : (settlePower s).env = s.env := by unfold settlePower; dsimp only; split <;> split <;> rfl

/-! ### switchPwmPhase -/

@[simp] theorem switchPwmPhase_tau (p : Phase) (b : Bool) : (switchPwmPhase p b s).tau = s.tau := rfl
@[simp] theorem switchPwmPhase_alarm (p : Phase) (b : Bool) : (switchPwmPhase p b s).alarm = s.alarm := rfl
@[simp] theorem switchPwmPhase_irq (p : Phase) (b : Bool) : (switchPwmPhase p b s).irq = s.irq := rfl
@[simp] theorem switchPwmPhase_timing (p : Phase) (b : Bool) : (switchPwmPhase p b s).timing = s.timing := rfl
@[simp] theorem switchPwmPhase_zc (p : Phase) (b : Bool) : (switchPwmPhase p b s).zc = s.zc := rfl
@[simp] theorem switchPwmPhase_duty (p : Phase) (b : Bool) : (switchPwmPhase p b s).duty = s.duty := rfl
@[simp] theorem switchPwmPhase_beaconCount (p : Phase) (b : Bool) : (switchPwmPhase p b s).beaconCount = s.beaconCount := rfl
@[simp] theorem switchPwmPhase_wave (p : Phase) (b : Bool) : (switchPwmPhase p b s).wave = s.wave := rfl
@[simp] theorem switchPwmPhase_ind (p : Phase) (b : Bool) : (switchPwmPhase p b s).ind = s.ind := rfl
@[simp] theorem switchPwmPhase_start (p : Phase) (b : Bool) : (switchPwmPhase p b s).start = s.start := rfl
@[simp] theorem switchPwmPhase_seq (p : Phase) (b : Bool) : (switchPwmPhase p b s).seq = s.seq := rfl
@[simp] theorem switchPwmPhase_status (p : Phase) (b : Bool) : (switchPwmPhase p b s).status = s.status := rfl
@[simp] theorem switchPwmPhase_config (p : Phase) (b : Bool) : (switchPwmPhase p b s).config = s.config := rfl
@[simp] theorem switchPwmPhase_env (p : Phase) (b : Bool) : (switchPwmPhase p b s).env = s.env := rfl

/-! ### switchFixedPhase -/

@[simp] theorem switchFixedPhase_tau (p : Phase) (b : Bool) : (switchFixedPhase p b s).tau = s.tau := rfl
@[simp] theorem switchFixedPhase_alarm (p : Phase) (b : Bool) : (switchFixedPhase p b s).alarm = s.alarm := rfl
@[simp] theorem switchFixedPhase_irq (p : Phase) (b : Bool) : (switchFixedPhase p b s).irq = s.irq := rfl
@[simp] theorem switchFixedPhase_timing (p : Phase) (b : Bool) : (switchFixedPhase p b s).timing = s.timing := rfl
@[simp] theorem switchFixedPhase_zc (p : Phase) (b : Bool) : (switchFixedPhase p b s).zc = s.zc := rfl
@[simp] theorem switchFixedPhase_duty (p : Phase) (b : Bool) : (switchFixedPhase p b s).duty = s.duty := rfl
@[simp] theorem switchFixedPhase_beaconCount (p : Phase) (b : Bool) : (switchFixedPhase p b s).beaconCount = s.beaconCount := rfl
@[simp] theorem switchFixedPhase_wave (p : Phase) (b : Bool) : (switchFixedPhase p b s).wave = s.wave := rfl
@[simp] theorem switchFixedPhase_ind (p : Phase) (b : Bool) : (switchFixedPhase p b s).ind = s.ind := rfl
@[simp] theorem switchFixedPhase_start (p : Phase) (b : Bool) : (switchFixedPhase p b s).start = s.start := rfl
@[simp] theorem switchFixedPhase_seq (p : Phase) (b : Bool) : (switchFixedPhase p b s).seq = s.seq := rfl
@[simp] theorem switchFixedPhase_status (p : Phase) (b : Bool) : (switchFixedPhase p b s).status = s.status := rfl
@[simp] theorem switchFixedPhase_config (p : Phase) (b : Bool) : (switchFixedPhase p b s).config = s.config := rfl
@[simp] theorem switchFixedPhase_env (p : Phase) (b : Bool) : (switchFixedPhase p b s).env = s.env := rfl

/-! ### commutate -/

@[simp] theorem commutate_tau : (commutate s).tau = s.tau := by simp [commutate]
@[simp] theorem commutate_alarm : (commutate s).alarm = s.alarm := by simp [commutate]
@[simp] theorem commutate_irq : (commutate s).irq = s.irq := by simp [commutate]
@[simp] theorem commutate_timing : (commutate s).timing = s.timing := by simp [commutate]
@[simp] theorem commutate_zc : (commutate s).zc = s.zc := by simp [commutate]
@[simp] theorem commutate_duty : (commutate s).duty = s.duty := by simp [commutate]
@[simp] theorem commutate_beaconCount : (commutate s).beaconCount = s.beaconCount := by simp [commutate]
@[simp] theorem commutate_ind : (commutate s).ind = s.ind := by simp [commutate]
@[simp] theorem commutate_seq : (commutate s).seq = s.seq := by simp [commutate]
@[simp] theorem commutate_status : (commutate s).status = s.status := by simp [commutate]
@[simp] theorem commutate_config : (commutate s).config = s.config := by simp [commutate]
@[simp] theorem commutate_env : (commutate s).env = s.env := by simp [commutate]

/-! ### allOff -/

@[simp] theorem allOff_tau : (allOff s).tau = s.tau := rfl
@[simp] theorem allOff_alarm : (allOff s).alarm = s.alarm := rfl
@[simp] theorem allOff_irq : (allOff s).irq = s.irq := rfl
@[simp] theorem allOff_timing : (allOff s).timing = s.timing := rfl
@[simp] theorem allOff_zc : (allOff s).zc = s.zc := rfl
@[simp] theorem allOff_duty : (allOff s).duty = s.duty := rfl
@[simp] theorem allOff_beaconCount : (allOff s).beaconCount = s.beaconCount := rfl
@[simp] theorem allOff_wave : (allOff s).wave = s.wave := rfl
@[simp] theorem allOff_ind : (allOff s).ind = s.ind := rfl
@[simp] theorem allOff_start : (allOff s).start = s.start := rfl
@[simp] theorem allOff_seq : (allOff s).seq = s.seq := rfl
@[simp] theorem allOff_status : (allOff s).status = s.status := rfl
@[simp] theorem allOff_config : (allOff s).config = s.config := rfl
@[simp] theorem allOff_env : (allOff s).env = s.env := rfl

/-! ### writePlan -/

@[simp] theorem writePlan_tau (p : DutyPlan) : (writePlan p s).tau = s.tau := by
  unfold writePlan; cases p.mode <;> first | rfl | (dsimp only; split <;> rfl)
@[simp] theorem writePlan_alarm (p : DutyPlan) : (writePlan p s).alarm = s.alarm := by
  unfold writePlan; cases p.mode <;> first | rfl | (dsimp only; split <;> rfl)
@[simp] theorem writePlan_irq (p : DutyPlan) : (writePlan p s).irq = s.irq := by
  unfold writePlan; cases p.mode <;> first | rfl | (dsimp only; split <;> rfl)
@[simp] theorem writePlan_timing (p : DutyPlan) : (writePlan p s).timing = s.timing := by
  unfold writePlan; cases p.mode <;> first | rfl | (dsimp only; split <;> rfl)
@[simp] theorem writePlan_comm (p : DutyPlan) : (writePlan p s).comm = s.comm := by
  unfold writePlan; cases p.mode <;> first | rfl | (dsimp only; split <;> rfl)
@[simp] theorem writePlan_zc (p : DutyPlan) : (writePlan p s).zc = s.zc := by
  unfold writePlan; cases p.mode <;> first | rfl | (dsimp only; split <;> rfl)
@[simp] theorem writePlan_beaconCount (p : DutyPlan) : (writePlan p s).beaconCount = s.beaconCount := by
  unfold writePlan; cases p.mode <;> first | rfl | (dsimp only; split <;> rfl)
@[simp] theorem writePlan_ind (p : DutyPlan) : (writePlan p s).ind = s.ind := by
  unfold writePlan; cases p.mode <;> first | rfl | (dsimp only; split <;> rfl)
@[simp] theorem writePlan_start (p : DutyPlan) : (writePlan p s).start = s.start := by
  unfold writePlan; cases p.mode <;> first | rfl | (dsimp only; split <;> rfl)
@[simp] theorem writePlan_seq (p : DutyPlan) : (writePlan p s).seq = s.seq := by
  unfold writePlan; cases p.mode <;> first | rfl | (dsimp only; split <;> rfl)
@[simp] theorem writePlan_status (p : DutyPlan) : (writePlan p s).status = s.status := by
  unfold writePlan; cases p.mode <;> first | rfl | (dsimp only; split <;> rfl)
@[simp] theorem writePlan_config (p : DutyPlan) : (writePlan p s).config = s.config := by
  unfold writePlan; cases p.mode <;> first | rfl | (dsimp only; split <;> rfl)
@[simp] theorem writePlan_env (p : DutyPlan) : (writePlan p s).env = s.env := by
  unfold writePlan; cases p.mode <;> first | rfl | (dsimp only; split <;> rfl)

/-! ### recomputeDuty -/

@[simp] theorem recomputeDuty_tau : (recomputeDuty s).tau = s.tau := by simp [recomputeDuty]
@[simp] theorem recomputeDuty_alarm : (recomputeDuty s).alarm = s.alarm := by simp [recomputeDuty]
@[simp] theorem recomputeDuty_irq : (recomputeDuty s).irq = s.irq := by simp [recomputeDuty]
@[simp] theorem recomputeDuty_timing : (recomputeDuty s).timing = s.timing := by simp [recomputeDuty]
@[simp] theorem recomputeDuty_comm : (recomputeDuty s).comm = s.comm := by simp [recomputeDuty]
@[simp] theorem recomputeDuty_zc : (recomputeDuty s).zc = s.zc := by simp [recomputeDuty]
@[simp] theorem recomputeDuty_beaconCount : (recomputeDuty s).beaconCount = s.beaconCount := by simp [recomputeDuty]
@[simp] theorem recomputeDuty_ind : (recomputeDuty s).ind = s.ind := by simp [recomputeDuty]
@[simp] theorem recomputeDuty_start : (recomputeDuty s).start = s.start := by simp [recomputeDuty]
@[simp] theorem recomputeDuty_seq : (recomputeDuty s).seq = s.seq := by simp [recomputeDuty]
@[simp] theorem recomputeDuty_status : (recomputeDuty s).status = s.status := by simp [recomputeDuty]
@[simp] theorem recomputeDuty_config : (recomputeDuty s).config = s.config := by simp [recomputeDuty]
@[simp] theorem recomputeDuty_env : (recomputeDuty s).env = s.env := by simp [recomputeDuty]

/-! ### countSignalLoss -/

@[simp] theorem countSignalLoss_tau : (countSignalLoss s).tau = s.tau := by unfold countSignalLoss; dsimp only; split <;> split <;> rfl
@[simp] theorem countSignalLoss_alarm : (countSignalLoss s).alarm = s.alarm := by unfold countSignalLoss; dsimp only; split <;> split <;> rfl
@[simp] theorem countSignalLoss_irq : (countSignalLoss s).irq = s.irq := by unfold countSignalLoss; dsimp only; split <;> split <;> rfl
@[simp] theorem countSignalLoss_timing : (countSignalLoss s).timing = s.timing := by unfold countSignalLoss; dsimp only; split <;> split <;> rfl
@[simp] theorem countSignalLoss_comm : (countSignalLoss s).comm = s.comm := by unfold countSignalLoss; dsimp only; split <;> split <;> rfl
@[simp] theorem countSignalLoss_zc : (countSignalLoss s).zc = s.zc := by unfold countSignalLoss; dsimp only; split <;> split <;> rfl
@[simp] theorem countSignalLoss_beaconCount : (countSignalLoss s).beaconCount = s.beaconCount := by unfold countSignalLoss; dsimp only; split <;> split <;> rfl
@[simp] theorem countSignalLoss_wave : (countSignalLoss s).wave = s.wave := by unfold countSignalLoss; dsimp only; split <;> split <;> rfl
@[simp] theorem countSignalLoss_ind : (countSignalLoss s).ind = s.ind := by unfold countSignalLoss; dsimp only; split <;> split <;> rfl
@[simp] theorem countSignalLoss_sw : (countSignalLoss s).sw = s.sw := by unfold countSignalLoss; dsimp only; split <;> split <;> rfl
@[simp] theorem countSignalLoss_start : (countSignalLoss s).start = s.start := by unfold countSignalLoss; dsimp only; split <;> split <;> rfl
@[simp] theorem countSignalLoss_seq : (countSignalLoss s).seq = s.seq := by unfold countSignalLoss; dsimp only; split <;> split <;> rfl
@[simp] theorem countSignalLoss_config : (countSignalLoss s).config = s.config := by unfold countSignalLoss; dsimp only; split <;> split <;> rfl
@[simp] theorem countSignalLoss_env : (countSignalLoss s).env = s.env := by unfold countSignalLoss; dsimp only; split <;> split <;> rfl

/-! ### acceptThrottle -/

@[simp] theorem acceptThrottle_tau (v : Word16) : (acceptThrottle v s).tau = s.tau := by simp [acceptThrottle]
@[simp] theorem acceptThrottle_alarm (v : Word16) : (acceptThrottle v s).alarm = s.alarm := by simp [acceptThrottle]
@[simp] theorem acceptThrottle_irq (v : Word16) : (acceptThrottle v s).irq = s.irq := by simp [acceptThrottle]
@[simp] theorem acceptThrottle_timing (v : Word16) : (acceptThrottle v s).timing = s.timing := by simp [acceptThrottle]
@[simp] theorem acceptThrottle_comm (v : Word16) : (acceptThrottle v s).comm = s.comm := by simp [acceptThrottle]
@[simp] theorem acceptThrottle_zc (v : Word16) : (acceptThrottle v s).zc = s.zc := by simp [acceptThrottle]
@[simp] theorem acceptThrottle_ind (v : Word16) : (acceptThrottle v s).ind = s.ind := by simp [acceptThrottle]
@[simp] theorem acceptThrottle_start (v : Word16) : (acceptThrottle v s).start = s.start := by simp [acceptThrottle]
@[simp] theorem acceptThrottle_seq (v : Word16) : (acceptThrottle v s).seq = s.seq := by simp [acceptThrottle]
@[simp] theorem acceptThrottle_status (v : Word16) : (acceptThrottle v s).status = s.status := by simp [acceptThrottle]
@[simp] theorem acceptThrottle_config (v : Word16) : (acceptThrottle v s).config = s.config := by simp [acceptThrottle]
@[simp] theorem acceptThrottle_env (v : Word16) : (acceptThrottle v s).env = s.env := by simp [acceptThrottle]

/-! ### setThrottleCommand -/

@[simp] theorem setThrottleCommand_tau (v : Word16) : (setThrottleCommand v s).tau = s.tau := by unfold setThrottleCommand; split <;> simp
@[simp] theorem setThrottleCommand_alarm (v : Word16) : (setThrottleCommand v s).alarm = s.alarm := by unfold setThrottleCommand; split <;> simp
@[simp] theorem setThrottleCommand_irq (v : Word16) : (setThrottleCommand v s).irq = s.irq := by unfold setThrottleCommand; split <;> simp
@[simp] theorem setThrottleCommand_timing (v : Word16) : (setThrottleCommand v s).timing = s.timing := by unfold setThrottleCommand; split <;> simp
@[simp] theorem setThrottleCommand_comm (v : Word16) : (setThrottleCommand v s).comm = s.comm := by unfold setThrottleCommand; split <;> simp
@[simp] theorem setThrottleCommand_zc (v : Word16) : (setThrottleCommand v s).zc = s.zc := by unfold setThrottleCommand; split <;> simp
@[simp] theorem setThrottleCommand_ind (v : Word16) : (setThrottleCommand v s).ind = s.ind := by unfold setThrottleCommand; split <;> simp
@[simp] theorem setThrottleCommand_start (v : Word16) : (setThrottleCommand v s).start = s.start := by unfold setThrottleCommand; split <;> simp
@[simp] theorem setThrottleCommand_seq (v : Word16) : (setThrottleCommand v s).seq = s.seq := by unfold setThrottleCommand; split <;> simp
@[simp] theorem setThrottleCommand_config (v : Word16) : (setThrottleCommand v s).config = s.config := by unfold setThrottleCommand; split <;> simp
@[simp] theorem setThrottleCommand_env (v : Word16) : (setThrottleCommand v s).env = s.env := by unfold setThrottleCommand; split <;> simp

/-! ### zcArm -/

@[simp] theorem zcArm_tau : (zcArm s).tau = s.tau := by simp [zcArm]
@[simp] theorem zcArm_timing : (zcArm s).timing = s.timing := by simp [zcArm]
@[simp] theorem zcArm_comm : (zcArm s).comm = s.comm := by simp [zcArm]
@[simp] theorem zcArm_duty : (zcArm s).duty = s.duty := by simp [zcArm]
@[simp] theorem zcArm_beaconCount : (zcArm s).beaconCount = s.beaconCount := by simp [zcArm]
@[simp] theorem zcArm_wave : (zcArm s).wave = s.wave := by simp [zcArm]
@[simp] theorem zcArm_ind : (zcArm s).ind = s.ind := by simp [zcArm]
@[simp] theorem zcArm_sw : (zcArm s).sw = s.sw := by simp [zcArm]
@[simp] theorem zcArm_start : (zcArm s).start = s.start := by simp [zcArm]
@[simp] theorem zcArm_seq : (zcArm s).seq = s.seq := by simp [zcArm]
@[simp] theorem zcArm_status : (zcArm s).status = s.status := by simp [zcArm]
@[simp] theorem zcArm_config : (zcArm s).config = s.config := by simp [zcArm]
@[simp] theorem zcArm_env : (zcArm s).env = s.env := by simp [zcArm]

/-! ### demagPoll -/

@[simp] theorem demagPoll_tau : ((demagPoll s).2).tau = s.tau := by unfold demagPoll; dsimp only; split_ifs <;> rfl
@[simp] theorem demagPoll_timing : ((demagPoll s).2).timing = s.timing := by unfold demagPoll; dsimp only; split_ifs <;> rfl
@[simp] theorem demagPoll_comm : ((demagPoll s).2).comm = s.comm := by unfold demagPoll; dsimp only; split_ifs <;> rfl
@[simp] theorem demagPoll_zc : ((demagPoll s).2).zc = s.zc := by unfold demagPoll; dsimp only; split_ifs <;> rfl
@[simp] theorem demagPoll_duty : ((demagPoll s).2).duty = s.duty := by unfold demagPoll; dsimp only; split_ifs <;> rfl
@[simp] theorem demagPoll_beaconCount : ((demagPoll s).2).beaconCount = s.beaconCount := by unfold demagPoll; dsimp only; split_ifs <;> rfl
@[simp] theorem demagPoll_wave : ((demagPoll s).2).wave = s.wave := by unfold demagPoll; dsimp only; split_ifs <;> rfl
@[simp] theorem demagPoll_ind : ((demagPoll s).2).ind = s.ind := by unfold demagPoll; dsimp only; split_ifs <;> rfl
@[simp] theorem demagPoll_sw : ((demagPoll s).2).sw = s.sw := by unfold demagPoll; dsimp only; split_ifs <;> rfl
@[simp] theorem demagPoll_start : ((demagPoll s).2).start = s.start := by unfold demagPoll; dsimp only; split_ifs <;> rfl
@[simp] theorem demagPoll_seq : ((demagPoll s).2).seq = s.seq := by unfold demagPoll; dsimp only; split_ifs <;> rfl
@[simp] theorem demagPoll_status : ((demagPoll s).2).status = s.status := by unfold demagPoll; dsimp only; split_ifs <;> rfl
@[simp] theorem demagPoll_config : ((demagPoll s).2).config = s.config := by unfold demagPoll; dsimp only; split_ifs <;> rfl

/-! ### edgePoll -/

@[simp] theorem edgePoll_tau : ((edgePoll s).2).tau = s.tau := by unfold edgePoll; dsimp only; split_ifs <;> rfl
@[simp] theorem edgePoll_alarm : ((edgePoll s).2).alarm = s.alarm := by unfold edgePoll; dsimp only; split_ifs <;> rfl
@[simp] theorem edgePoll_irq : ((edgePoll s).2).irq = s.irq := by unfold edgePoll; dsimp only; split_ifs <;> rfl
@[simp] theorem edgePoll_timing : ((edgePoll s).2).timing = s.timing := by unfold edgePoll; dsimp only; split_ifs <;> rfl
@[simp] theorem edgePoll_comm : ((edgePoll s).2).comm = s.comm := by unfold edgePoll; dsimp only; split_ifs <;> rfl
@[simp] theorem edgePoll_duty : ((edgePoll s).2).duty = s.duty := by unfold edgePoll; dsimp only; split_ifs <;> rfl
@[simp] theorem edgePoll_beaconCount : ((edgePoll s).2).beaconCount = s.beaconCount := by unfold edgePoll; dsimp only; split_ifs <;> rfl
@[simp] theorem edgePoll_wave : ((edgePoll s).2).wave = s.wave := by unfold edgePoll; dsimp only; split_ifs <;> rfl
@[simp] theorem edgePoll_ind : ((edgePoll s).2).ind = s.ind := by unfold edgePoll; dsimp only; split_ifs <;> rfl
@[simp] theorem edgePoll_sw : ((edgePoll s).2).sw = s.sw := by unfold edgePoll; dsimp only; split_ifs <;> rfl
@[simp] theorem edgePoll_start : ((edgePoll s).2).start = s.start := by unfold edgePoll; dsimp only; split_ifs <;> rfl
@[simp] theorem edgePoll_seq : ((edgePoll s).2).seq = s.seq := by unfold edgePoll; dsimp only; split_ifs <;> rfl
@[simp] theorem edgePoll_status : ((edgePoll s).2).status = s.status := by unfold edgePoll; dsimp only; split_ifs <;> rfl
@[simp] theorem edgePoll_config : ((edgePoll s).2).config = s.config := by unfold edgePoll; dsimp only; split_ifs <;> rfl

/-! ### feedback -/

@[simp] theorem feedback_tau (T : Time) : (feedback T s).tau = s.tau := by simp [feedback]
@[simp] theorem feedback_alarm (T : Time) : (feedback T s).alarm = s.alarm := by simp [feedback]
@[simp] theorem feedback_irq (T : Time) : (feedback T s).irq = s.irq := by simp [feedback]
@[simp] theorem feedback_comm (T : Time) : (feedback T s).comm = s.comm := by simp [feedback]
@[simp] theorem feedback_zc (T : Time) : (feedback T s).zc = s.zc := by simp [feedback]
@[simp] theorem feedback_beaconCount (T : Time) : (feedback T s).beaconCount = s.beaconCount := by simp [feedback]
@[simp] theorem feedback_ind (T : Time) : (feedback T s).ind = s.ind := by simp [feedback]
@[simp] theorem feedback_start (T : Time) : (feedback T s).start = s.start := by simp [feedback]
@[simp] theorem feedback_seq (T : Time) : (feedback T s).seq = s.seq := by simp [feedback]
@[simp] theorem feedback_config (T : Time) : (feedback T s).config = s.config := by simp [feedback]
@[simp] theorem feedback_env (T : Time) : (feedback T s).env = s.env := by simp [feedback]

/-! ### confirm -/

@[simp] theorem confirm_tau : (confirm s).tau = s.tau := by simp [confirm]
@[simp] theorem confirm_comm : (confirm s).comm = s.comm := by simp [confirm]
@[simp] theorem confirm_zc : (confirm s).zc = s.zc := by simp [confirm]
@[simp] theorem confirm_beaconCount : (confirm s).beaconCount = s.beaconCount := by simp [confirm]
@[simp] theorem confirm_ind : (confirm s).ind = s.ind := by simp [confirm]
@[simp] theorem confirm_start : (confirm s).start = s.start := by simp [confirm]
@[simp] theorem confirm_seq : (confirm s).seq = s.seq := by simp [confirm]
@[simp] theorem confirm_config : (confirm s).config = s.config := by simp [confirm]
@[simp] theorem confirm_env : (confirm s).env = s.env := by simp [confirm]

/-! ### demagTimeout -/

@[simp] theorem demagTimeout_tau : (demagTimeout s).tau = s.tau := by simp [demagTimeout]
@[simp] theorem demagTimeout_alarm : (demagTimeout s).alarm = s.alarm := by simp [demagTimeout]
@[simp] theorem demagTimeout_irq : (demagTimeout s).irq = s.irq := by simp [demagTimeout]
@[simp] theorem demagTimeout_timing : (demagTimeout s).timing = s.timing := by simp [demagTimeout]
@[simp] theorem demagTimeout_comm : (demagTimeout s).comm = s.comm := by simp [demagTimeout]
@[simp] theorem demagTimeout_zc : (demagTimeout s).zc = s.zc := by simp [demagTimeout]
@[simp] theorem demagTimeout_duty : (demagTimeout s).duty = s.duty := by simp [demagTimeout]
@[simp] theorem demagTimeout_beaconCount : (demagTimeout s).beaconCount = s.beaconCount := by simp [demagTimeout]
@[simp] theorem demagTimeout_ind : (demagTimeout s).ind = s.ind := by simp [demagTimeout]
@[simp] theorem demagTimeout_seq : (demagTimeout s).seq = s.seq := by simp [demagTimeout]
@[simp] theorem demagTimeout_config : (demagTimeout s).config = s.config := by simp [demagTimeout]
@[simp] theorem demagTimeout_env : (demagTimeout s).env = s.env := by simp [demagTimeout]

/-! ### openFollowup -/

@[simp] theorem openFollowup_tau : (openFollowup s).tau = s.tau := by simp [openFollowup]
@[simp] theorem openFollowup_timing : (openFollowup s).timing = s.timing := by simp [openFollowup]
@[simp] theorem openFollowup_comm : (openFollowup s).comm = s.comm := by simp [openFollowup]
@[simp] theorem openFollowup_duty : (openFollowup s).duty = s.duty := by simp [openFollowup]
@[simp] theorem openFollowup_beaconCount : (openFollowup s).beaconCount = s.beaconCount := by simp [openFollowup]
@[simp] theorem openFollowup_wave : (openFollowup s).wave = s.wave := by simp [openFollowup]
@[simp] theorem openFollowup_ind : (openFollowup s).ind = s.ind := by simp [openFollowup]
@[simp] theorem openFollowup_sw : (openFollowup s).sw = s.sw := by simp [openFollowup]
@[simp] theorem openFollowup_start : (openFollowup s).start = s.start := by simp [openFollowup]
@[simp] theorem openFollowup_seq : (openFollowup s).seq = s.seq := by simp [openFollowup]
@[simp] theorem openFollowup_config : (openFollowup s).config = s.config := by simp [openFollowup]
@[simp] theorem openFollowup_env : (openFollowup s).env = s.env := by simp [openFollowup]

/-! ### finalTimeout -/

@[simp] theorem finalTimeout_tau : (finalTimeout s).tau = s.tau := by simp [finalTimeout]
@[simp] theorem finalTimeout_alarm : (finalTimeout s).alarm = s.alarm := by simp [finalTimeout]
@[simp] theorem finalTimeout_irq : (finalTimeout s).irq = s.irq := by simp [finalTimeout]
@[simp] theorem finalTimeout_timing : (finalTimeout s).timing = s.timing := by simp [finalTimeout]
@[simp] theorem finalTimeout_comm : (finalTimeout s).comm = s.comm := by simp [finalTimeout]
@[simp] theorem finalTimeout_duty : (finalTimeout s).duty = s.duty := by simp [finalTimeout]
@[simp] theorem finalTimeout_beaconCount : (finalTimeout s).beaconCount = s.beaconCount := by simp [finalTimeout]
@[simp] theorem finalTimeout_wave : (finalTimeout s).wave = s.wave := by simp [finalTimeout]
@[simp] theorem finalTimeout_sw : (finalTimeout s).sw = s.sw := by simp [finalTimeout]
@[simp] theorem finalTimeout_seq : (finalTimeout s).seq = s.seq := by simp [finalTimeout]
@[simp] theorem finalTimeout_config : (finalTimeout s).config = s.config := by simp [finalTimeout]
@[simp] theorem finalTimeout_env : (finalTimeout s).env = s.env := by simp [finalTimeout]

/-! ### zcTimeout -/

@[simp] theorem zcTimeout_tau : ((zcTimeout s).2).tau = s.tau := by unfold zcTimeout; split <;> simp
@[simp] theorem zcTimeout_timing : ((zcTimeout s).2).timing = s.timing := by unfold zcTimeout; split <;> simp
@[simp] theorem zcTimeout_comm : ((zcTimeout s).2).comm = s.comm := by unfold zcTimeout; split <;> simp
@[simp] theorem zcTimeout_duty : ((zcTimeout s).2).duty = s.duty := by unfold zcTimeout; split <;> simp
@[simp] theorem zcTimeout_beaconCount : ((zcTimeout s).2).beaconCount = s.beaconCount := by unfold zcTimeout; split <;> simp
@[simp] theorem zcTimeout_wave : ((zcTimeout s).2).wave = s.wave := by unfold zcTimeout; split <;> simp
@[simp] theorem zcTimeout_sw : ((zcTimeout s).2).sw = s.sw := by unfold zcTimeout; split <;> simp
@[simp] theorem zcTimeout_seq : ((zcTimeout s).2).seq = s.seq := by unfold zcTimeout; split <;> simp
@[simp] theorem zcTimeout_config : ((zcTimeout s).2).config = s.config := by unfold zcTimeout; split <;> simp
@[simp] theorem zcTimeout_env : ((zcTimeout s).2).env = s.env := by unfold zcTimeout; split <;> simp

/-! ### skipArm -/

@[simp] theorem skipArm_tau : (skipArm s).tau = s.tau := by simp [skipArm]
@[simp] theorem skipArm_timing : (skipArm s).timing = s.timing := by simp [skipArm]
@[simp] theorem skipArm_comm : (skipArm s).comm = s.comm := by simp [skipArm]
@[simp] theorem skipArm_zc : (skipArm s).zc = s.zc := by simp [skipArm]
@[simp] theorem skipArm_duty : (skipArm s).duty = s.duty := by simp [skipArm]
@[simp] theorem skipArm_beaconCount : (skipArm s).beaconCount = s.beaconCount := by simp [skipArm]
@[simp] theorem skipArm_wave : (skipArm s).wave = s.wave := by simp [skipArm]
@[simp] theorem skipArm_ind : (skipArm s).ind = s.ind := by simp [skipArm]
@[simp] theorem skipArm_sw : (skipArm s).sw = s.sw := by simp [skipArm]
@[simp] theorem skipArm_seq : (skipArm s).seq = s.seq := by simp [skipArm]
@[simp] theorem skipArm_status : (skipArm s).status = s.status := by simp [skipArm]
@[simp] theorem skipArm_config : (skipArm s).config = s.config := by simp [skipArm]
@[simp] theorem skipArm_env : (skipArm s).env = s.env := by simp [skipArm]

/-! ### startFromRunning -/

@[simp] theorem startFromRunning_tau : (startFromRunning s).tau = s.tau := by simp [startFromRunning]
@[simp] theorem startFromRunning_alarm : (startFromRunning s).alarm = s.alarm := by simp [startFromRunning]
@[simp] theorem startFromRunning_irq : (startFromRunning s).irq = s.irq := by simp [startFromRunning]
@[simp] theorem startFromRunning_timing : (startFromRunning s).timing = s.timing := by simp [startFromRunning]
@[simp] theorem startFromRunning_comm : (startFromRunning s).comm = s.comm := by simp [startFromRunning]
@[simp] theorem startFromRunning_zc : (startFromRunning s).zc = s.zc := by simp [startFromRunning]
@[simp] theorem startFromRunning_beaconCount : (startFromRunning s).beaconCount = s.beaconCount := by simp [startFromRunning]
@[simp] theorem startFromRunning_status : (startFromRunning s).status = s.status := by simp [startFromRunning]
@[simp] theorem startFromRunning_config : (startFromRunning s).config = s.config := by simp [startFromRunning]
@[simp] theorem startFromRunning_env : (startFromRunning s).env = s.env := by simp [startFromRunning]

/-! ### disarm -/

@[simp] theorem disarm_tau : (disarm s).tau = s.tau := by simp [disarm]
@[simp] theorem disarm_alarm : (disarm s).alarm = s.alarm := by simp [disarm]
@[simp] theorem disarm_irq : (disarm s).irq = s.irq := by simp [disarm]
@[simp] theorem disarm_timing : (disarm s).timing = s.timing := by simp [disarm]
@[simp] theorem disarm_zc : (disarm s).zc = s.zc := by simp [disarm]
@[simp] theorem disarm_beaconCount : (disarm s).beaconCount = s.beaconCount := by simp [disarm]
@[simp] theorem disarm_seq : (disarm s).seq = s.seq := by simp [disarm]
@[simp] theorem disarm_config : (disarm s).config = s.config := by simp [disarm]
@[simp] theorem disarm_env : (disarm s).env = s.env := by simp [disarm]

/-! ### restartControl -/

@[simp] theorem restartControl_tau : (restartControl s).tau = s.tau := by simp [restartControl]
@[simp] theorem restartControl_alarm : (restartControl s).alarm = s.alarm := by simp [restartControl]
@[simp] theorem restartControl_irq : (restartControl s).irq = s.irq := by simp [restartControl]
@[simp] theorem restartControl_timing : (restartControl s).timing = s.timing := by simp [restartControl]
@[simp] theorem restartControl_zc : (restartControl s).zc = s.zc := by simp [restartControl]
@[simp] theorem restartControl_beaconCount : (restartControl s).beaconCount = s.beaconCount := by simp [restartControl]
@[simp] theorem restartControl_config : (restartControl s).config = s.config := by simp [restartControl]
@[simp] theorem restartControl_env : (restartControl s).env = s.env := by simp [restartControl]

/-! ### startFailed -/

@[simp] theorem startFailed_tau : (startFailed s).tau = s.tau := by simp [startFailed]
@[simp] theorem startFailed_alarm : (startFailed s).alarm = s.alarm := by simp [startFailed]
@[simp] theorem startFailed_irq : (startFailed s).irq = s.irq := by simp [startFailed]
@[simp] theorem startFailed_timing : (startFailed s).timing = s.timing := by simp [startFailed]
@[simp] theorem startFailed_zc : (startFailed s).zc = s.zc := by simp [startFailed]
@[simp] theorem startFailed_beaconCount : (startFailed s).beaconCount = s.beaconCount := by simp [startFailed]
@[simp] theorem startFailed_config : (startFailed s).config = s.config := by simp [startFailed]
@[simp] theorem startFailed_env : (startFailed s).env = s.env := by simp [startFailed]

/-! ### enterStall -/

@[simp] theorem enterStall_tau : (enterStall s).tau = s.tau := by simp [enterStall]
@[simp] theorem enterStall_timing : (enterStall s).timing = s.timing := by simp [enterStall]
@[simp] theorem enterStall_comm : (enterStall s).comm = s.comm := by simp [enterStall]
@[simp] theorem enterStall_zc : (enterStall s).zc = s.zc := by simp [enterStall]
@[simp] theorem enterStall_duty : (enterStall s).duty = s.duty := by simp [enterStall]
@[simp] theorem enterStall_beaconCount : (enterStall s).beaconCount = s.beaconCount := by simp [enterStall]
@[simp] theorem enterStall_wave : (enterStall s).wave = s.wave := by simp [enterStall]
@[simp] theorem enterStall_ind : (enterStall s).ind = s.ind := by simp [enterStall]
@[simp] theorem enterStall_sw : (enterStall s).sw = s.sw := by simp [enterStall]
@[simp] theorem enterStall_config : (enterStall s).config = s.config := by simp [enterStall]
@[simp] theorem enterStall_env : (enterStall s).env = s.env := by simp [enterStall]

/-! ### runningRamp -/

@[simp] theorem runningRamp_tau : (runningRamp s).tau = s.tau := by simp [runningRamp]
@[simp] theorem runningRamp_alarm : (runningRamp s).alarm = s.alarm := by simp [runningRamp]
@[simp] theorem runningRamp_irq : (runningRamp s).irq = s.irq := by simp [runningRamp]
@[simp] theorem runningRamp_timing : (runningRamp s).timing = s.timing := by simp [runningRamp]
@[simp] theorem runningRamp_comm : (runningRamp s).comm = s.comm := by simp [runningRamp]
@[simp] theorem runningRamp_zc : (runningRamp s).zc = s.zc := by simp [runningRamp]
@[simp] theorem runningRamp_beaconCount : (runningRamp s).beaconCount = s.beaconCount := by simp [runningRamp]
@[simp] theorem runningRamp_ind : (runningRamp s).ind = s.ind := by simp [runningRamp]
@[simp] theorem runningRamp_status : (runningRamp s).status = s.status := by simp [runningRamp]
@[simp] theorem runningRamp_config : (runningRamp s).config = s.config := by simp [runningRamp]
@[simp] theorem runningRamp_env : (runningRamp s).env = s.env := by simp [runningRamp]

/-! ### countStart -/

@[simp] theorem countStart_tau : (countStart s).tau = s.tau := rfl
@[simp] theorem countStart_alarm : (countStart s).alarm = s.alarm := rfl
@[simp] theorem countStart_irq : (countStart s).irq = s.irq := rfl
@[simp] theorem countStart_timing : (countStart s).timing = s.timing := rfl
@[simp] theorem countStart_comm : (countStart s).comm = s.comm := rfl
@[simp] theorem countStart_zc : (countStart s).zc = s.zc := rfl
@[simp] theorem countStart_duty : (countStart s).duty = s.duty := rfl
@[simp] theorem countStart_beaconCount : (countStart s).beaconCount = s.beaconCount := rfl
@[simp] theorem countStart_wave : (countStart s).wave = s.wave := rfl
@[simp] theorem countStart_ind : (countStart s).ind = s.ind := rfl
@[simp] theorem countStart_sw : (countStart s).sw = s.sw := rfl
@[simp] theorem countStart_seq : (countStart s).seq = s.seq := rfl
@[simp] theorem countStart_status : (countStart s).status = s.status := rfl
@[simp] theorem countStart_config : (countStart s).config = s.config := rfl
@[simp] theorem countStart_env : (countStart s).env = s.env := rfl

/-! ### startingRamp -/

@[simp] theorem startingRamp_tau : (startingRamp s).tau = s.tau := by simp [startingRamp]
@[simp] theorem startingRamp_alarm : (startingRamp s).alarm = s.alarm := by simp [startingRamp]
@[simp] theorem startingRamp_irq : (startingRamp s).irq = s.irq := by simp [startingRamp]
@[simp] theorem startingRamp_timing : (startingRamp s).timing = s.timing := by simp [startingRamp]
@[simp] theorem startingRamp_comm : (startingRamp s).comm = s.comm := by simp [startingRamp]
@[simp] theorem startingRamp_zc : (startingRamp s).zc = s.zc := by simp [startingRamp]
@[simp] theorem startingRamp_beaconCount : (startingRamp s).beaconCount = s.beaconCount := by simp [startingRamp]
@[simp] theorem startingRamp_ind : (startingRamp s).ind = s.ind := by simp [startingRamp]
@[simp] theorem startingRamp_status : (startingRamp s).status = s.status := by simp [startingRamp]
@[simp] theorem startingRamp_config : (startingRamp s).config = s.config := by simp [startingRamp]
@[simp] theorem startingRamp_env : (startingRamp s).env = s.env := by simp [startingRamp]

/-! ### startingBranch -/

@[simp] theorem startingBranch_tau : (startingBranch s).tau = s.tau := by unfold startingBranch; dsimp only; split <;> simp
@[simp] theorem startingBranch_alarm : (startingBranch s).alarm = s.alarm := by unfold startingBranch; dsimp only; split <;> simp
@[simp] theorem startingBranch_irq : (startingBranch s).irq = s.irq := by unfold startingBranch; dsimp only; split <;> simp
@[simp] theorem startingBranch_timing : (startingBranch s).timing = s.timing := by unfold startingBranch; dsimp only; split <;> simp
@[simp] theorem startingBranch_zc : (startingBranch s).zc = s.zc := by unfold startingBranch; dsimp only; split <;> simp
@[simp] theorem startingBranch_beaconCount : (startingBranch s).beaconCount = s.beaconCount := by unfold startingBranch; dsimp only; split <;> simp
@[simp] theorem startingBranch_config : (startingBranch s).config = s.config := by unfold startingBranch; dsimp only; split <;> simp
@[simp] theorem startingBranch_env : (startingBranch s).env = s.env := by unfold startingBranch; dsimp only; split <;> simp

/-! ### supervisorEvaluate -/

@[simp] theorem supervisorEvaluate_tau : (supervisorEvaluate s).tau = s.tau := by unfold supervisorEvaluate; split_ifs <;> simp
@[simp] theorem supervisorEvaluate_timing : (supervisorEvaluate s).timing = s.timing := by unfold supervisorEvaluate; split_ifs <;> simp
@[simp] theorem supervisorEvaluate_zc : (supervisorEvaluate s).zc = s.zc := by unfold supervisorEvaluate; split_ifs <;> simp
@[simp] theorem supervisorEvaluate_beaconCount : (supervisorEvaluate s).beaconCount = s.beaconCount := by unfold supervisorEvaluate; split_ifs <;> simp
@[simp] theorem supervisorEvaluate_config : (supervisorEvaluate s).config = s.config := by unfold supervisorEvaluate; split_ifs <;> simp
@[simp] theorem supervisorEvaluate_env : (supervisorEvaluate s).env = s.env := by unfold supervisorEvaluate; split_ifs <;> simp

/-! ### stepDone -/

@[simp] theorem stepDone_tau : (stepDone s).tau = s.tau := by unfold stepDone; split <;> rfl
@[simp] theorem stepDone_alarm : (stepDone s).alarm = s.alarm := by unfold stepDone; split <;> rfl
@[simp] theorem stepDone_irq : (stepDone s).irq = s.irq := by unfold stepDone; split <;> rfl
@[simp] theorem stepDone_timing : (stepDone s).timing = s.timing := by unfold stepDone; split <;> rfl
@[simp] theorem stepDone_comm : (stepDone s).comm = s.comm := by unfold stepDone; split <;> rfl
@[simp] theorem stepDone_zc : (stepDone s).zc = s.zc := by unfold stepDone; split <;> rfl
@[simp] theorem stepDone_duty : (stepDone s).duty = s.duty := by unfold stepDone; split <;> rfl
@[simp] theorem stepDone_beaconCount : (stepDone s).beaconCount = s.beaconCount := by unfold stepDone; split <;> rfl
@[simp] theorem stepDone_wave : (stepDone s).wave = s.wave := by unfold stepDone; split <;> rfl
@[simp] theorem stepDone_ind : (stepDone s).ind = s.ind := by unfold stepDone; split <;> rfl
@[simp] theorem stepDone_sw : (stepDone s).sw = s.sw := by unfold stepDone; split <;> rfl
@[simp] theorem stepDone_start : (stepDone s).start = s.start := by unfold stepDone; split <;> rfl
@[simp] theorem stepDone_status : (stepDone s).status = s.status := by unfold stepDone; split <;> rfl
@[simp] theorem stepDone_config : (stepDone s).config = s.config := by unfold stepDone; split <;> rfl
@[simp] theorem stepDone_env : (stepDone s).env = s.env := by unfold stepDone; split <;> rfl

/-! ### sequencerStep -/

@[simp] theorem sequencerStep_tau : (sequencerStep s).tau = s.tau := by
  unfold sequencerStep stepCommutate stepSkipWait stepDemagWait stepEdgeFilter stepEdgeTimeout stepStallDelay
    stepFailed
  dsimp only
  split <;> (try split) <;> (try split) <;> simp
@[simp] theorem sequencerStep_config : (sequencerStep s).config = s.config := by
  unfold sequencerStep stepCommutate stepSkipWait stepDemagWait stepEdgeFilter stepEdgeTimeout stepStallDelay
    stepFailed
  dsimp only
  split <;> (try split) <;> (try split) <;> simp

/-! ### microStep -/

@[simp] theorem microStep_tau : (microStep s).tau = s.tau := by unfold microStep; split <;> simp
@[simp] theorem microStep_config : (microStep s).config = s.config := by unfold microStep; split <;> simp

end Sys2Proof.Machine
end

