-- ==== Sys2Proof/Laws/Result.lean ====
section
/-! SUPPORT. No operation reads the result register: each shared operation commutes with writing it. -/

namespace Sys2Proof.Machine

variable (s : State) (v : Time)

@[simp] theorem setRes_setRes (w : Time) : setRes v (setRes w s) = setRes v s := rfl

@[simp] theorem now_setRes : now (setRes v s) = now s := rfl

@[simp] theorem demagTimeout_setRes : demagTimeout (setRes v s) = setRes v (demagTimeout s) := rfl

@[simp] theorem computeTimingDutyLimit_setRes :
    computeTimingDutyLimit (setRes v s) = setRes v (computeTimingDutyLimit s) := rfl

@[simp] theorem recordEdge_setRes (T : Time) :
    recordEdge T (setRes v s) = setRes v (recordEdge T s) := by
  unfold recordEdge
  have : overspeed T (setRes v s) = overspeed T s := rfl
  simp only [this, newInterval]
  by_cases h : overspeed T s = true
  · simp only [h, if_true]; rfl
  · rw [Bool.not_eq_true] at h; simp only [h]; rfl

@[simp] theorem writePlan_setRes (p : DutyPlan) :
    writePlan p (setRes v s) = setRes v (writePlan p s) := by
  unfold writePlan
  cases p.mode
  · rfl
  · rfl
  · rfl
  · by_cases hc : (s.wave.pwmEnabled && !s.wave.pwmSuppressed) = true
    · simp only [setRes, hc, if_true, drivePwmPhase]
    · rw [Bool.not_eq_true] at hc; simp only [setRes, hc]; rfl

@[simp] theorem recomputeDuty_setRes : recomputeDuty (setRes v s) = setRes v (recomputeDuty s) :=
  writePlan_setRes
    { s with duty.rateLimitedDuty := cappedCeiling (clampedThrottle s) s.duty.rateLimitedDuty } v
    (dutyPlan s.cfg.MAX_POWER.toNat (startupDoubling s) (clampedThrottle s))

@[simp] theorem feedback_setRes (T : Time) : feedback T (setRes v s) = setRes v (feedback T s) := by
  simp only [feedback, recordEdge_setRes, computeTimingDutyLimit_setRes, recomputeDuty_setRes]

@[simp] theorem zcTimeout_setRes :
    zcTimeout (setRes v s) = ((zcTimeout s).1, setRes v (zcTimeout s).2) := by
  unfold zcTimeout
  have : crossingInProgress (setRes v s) = crossingInProgress s := rfl
  rw [this]
  cases crossingInProgress s <;> rfl

/-- R221: a micro-step that is enabled performs the arm of the present state and ends with res = 1. -/
theorem microStep_performed (h : stepHeld s = false) : microStep s = setRes 1 (sequencerStep s) := by
  simp [microStep, h]

/-- R221: a micro-step that is held changes nothing but res. -/
theorem microStep_held (h : stepHeld s = true) : microStep s = setRes 0 s := by
  simp [microStep, h]

end Sys2Proof.Machine
end

