-- ==== Sys2Proof/Laws/Timer.lean ====
section
/-! SUPPORT. The clock reading, the distance to a target and the elapsed test as arithmetic on
naturals, and what arming a delay that lies in the future does. -/

namespace Sys2Proof.Machine

/-- R101 as arithmetic. -/
theorem now_toNat (s : State) : (now s).toNat = s.tau % 0x1000000 := by simp [now, toTime]

/-- R103 as arithmetic: the forward distance on the 24-bit clock. -/
theorem sub_toNat (T n : Time) :
    (T - n).toNat = (T.toNat + 0x1000000 - n.toNat % 0x1000000) % 0x1000000 := by
  have := n.isLt
  rw [BitVec.toNat_sub]; omega

/-- The distance of a target from the present time. -/
theorem ahead_now (T : Time) (s : State) :
    (ahead T (now s)).toNat = (T.toNat + 0x1000000 - s.tau % 0x1000000) % 0x1000000 := by
  rw [ahead, sub_toNat, now_toNat]; omega

/-- The elapsed test of a target against the present time. -/
theorem elapsed_now (T : Time) (s : State) :
    elapsed T (now s) = true ↔
      (T.toNat + 0x1000000 - s.tau % 0x1000000) % 0x1000000 = 0 ∨
      0x800000 ≤ (T.toNat + 0x1000000 - s.tau % 0x1000000) % 0x1000000 := by
  simp [elapsed, ahead_now]

/-- A delta added to the present time is that far ahead of it. -/
theorem ahead_delta (s : State) (d : Time) : ahead (now s + d) (now s) = d := by simp [ahead]

/-- R105: a delta of 1 to 2^23-1 is pending for that many cycles. -/
theorem armRelative_future (s : State) (d : Time) (h₁ : 1 ≤ d.toNat) (h₂ : d.toNat < 0x800000) :
    armRelative d s = { s with alarm := ⟨true, s.tau + d.toNat⟩, irq.cmpIrq := false } := by
  have h : elapsed (now s + d) (now s) = false := by
    simp only [elapsed, ahead_delta]; simp; omega
  simp [armRelative, armAbsolute, h, ahead_delta]

end Sys2Proof.Machine
end

