-- ==== Sys2Proof/Tests/Slice0.lean ====
section
/-! SUPPORT. Tests and witnesses. Every expected value stands in spec/95_test_vectors.md (TVn, Tn) or
is computed by hand from the rule named; none is the model's own answer. -/

namespace Sys2Proof.Tests

open Sys2Proof Sys2Proof.Machine

/-! ## Small states -/

/-- The configuration EX of 95_test_vectors.md §0. -/
def exConfig : ValidConfig := ⟨Config.ex, by decide⟩
/-- EX with REVERSE = 1. -/
def reverseConfig : ValidConfig := ⟨{ Config.ex with REVERSE := true }, by decide⟩
/-- EX with STARTUP_PWM_DOUBLE = 1. -/
def doubleConfig : ValidConfig := ⟨{ Config.ex with STARTUP_PWM_DOUBLE := true }, by decide⟩
/-- EX with PWM_SIDE = LOW. -/
def lowSideConfig : ValidConfig := ⟨{ Config.ex with PWM_SIDE := .low }, by decide⟩

/-- The start state of every vector: reset with the clock draw 0. -/
def ex (c : ValidConfig := exConfig) : State :=
  State.resetWith c 0 { port := [], cmpIn := [], tauIn := [], draws := 0 }

/-- 95_test_vectors.md §2.3's start: ALLOFF, powered, with the waveform in its on-phase. -/
def powered (c : ValidConfig := exConfig) : State :=
  { ex c with duty.powerOnFlag := true, wave.pwmEnabled := true, wave.pwmOut := true }

/-- TV50's end: S0, driven. -/
def driven : State :=
  { powered with comm := ⟨.step .S0, some .A, some .B, some .C, true⟩, sw := ⟨.high, .low, .off⟩ }

/-- Duty tracking on, with the values of TV90. -/
def tracking : State :=
  { ex with duty.dutyTracking := true, duty.commandedDuty := 100, duty.rateLimitedDuty := 64 }

/-- An alarm pending n cycles ahead. -/
def pendingFor (n : Nat) (s : State) : State := { s with alarm := ⟨true, s.tau + n⟩ }

/-- What a view shows after an instruction that answers a next state. -/
def after {α : Type} (i : Instr) (s : State) (view : State → α) : Option α :=
  match exec i s with
  | .next t => some (view t)
  | _ => none

/-- What a view shows after the step that takes a word given as a number. -/
def afterWord {α : Type} (w : Nat) (s : State) (view : State → α) : Option α :=
  match step (s.withFetchWord 64 w) with
  | .next t => some (view t)
  | _ => none

/-! ## Well-formedness: the one check, and a term it refuses (R88(3)) -/

theorem test_wellFormed_advance : (Instr.predict 30).wellFormed = true ∧
    (Instr.predict 31).wellFormed = false ∧ (Instr.predict 255).wellFormed = false := by decide

/-! ## Decoding: one word per constructor, written from R76, R79 and R87 as {OPC, B, Y, X} -/

theorem test_decode_armabs : decodeTableWord 64 0x0100000000ABCDEF = some (.armabs 0xABCDEF) := by decide
theorem test_decode_armrel : decodeTableWord 64 0x02000000000003E8 = some (.armrel 1000) := by decide
theorem test_decode_waital : decodeTableWord 64 0x0300000000000000 = some .waital := by decide
theorem test_decode_now : decodeTableWord 64 0x0400000000000000 = some .now := by decide
theorem test_decode_recedge : decodeTableWord 64 0x1000000000000BB8 = some (.recedge 3000) := by decide
theorem test_decode_predict : decodeTableWord 64 0x1111000000000000 = some (.predict 17) := by decide
theorem test_decode_deg2t :
    decodeTableWord 64 0x12C8FFFF00123456 = some (.deg2t 0x123456 0xFFFF00 200) := by decide
theorem test_decode_tlimit : decodeTableWord 64 0x1300000000000000 = some .tlimit := by decide
theorem test_decode_commut : decodeTableWord 64 0x2000000000000000 = some .commut := by decide
theorem test_decode_alloff : decodeTableWord 64 0x2100000000000000 = some .alloff := by decide
theorem test_decode_zcarm : decodeTableWord 64 0x3000000000000000 = some .zcarm := by decide
theorem test_decode_demagp : decodeTableWord 64 0x3100000000000000 = some .demagp := by decide
theorem test_decode_edgep : decodeTableWord 64 0x3200000000000000 = some .edgep := by decide
theorem test_decode_confirm : decodeTableWord 64 0x3300000000000000 = some .confirm := by decide
theorem test_decode_demagto : decodeTableWord 64 0x3400000000000000 = some .demagto := by decide
theorem test_decode_zcto : decodeTableWord 64 0x3500000000000000 = some .zcto := by decide
theorem test_decode_skiparm : decodeTableWord 64 0x3600000000000000 = some .skiparm := by decide
theorem test_decode_feedbk : decodeTableWord 64 0x3700000000000000 = some .feedbk := by decide
theorem test_decode_setthr : decodeTableWord 64 0x400000000000FFFF = some (.setthr 0xFFFF) := by decide
theorem test_decode_recomp : decodeTableWord 64 0x4100000000000000 = some .recomp := by decide
theorem test_decode_restart : decodeTableWord 64 0x5000000000000000 = some .restart := by decide
theorem test_decode_startfr : decodeTableWord 64 0x5100000000000000 = some .startfr := by decide
theorem test_decode_eval : decodeTableWord 64 0x5200000000000000 = some .eval := by decide
theorem test_decode_failed : decodeTableWord 64 0x5300000000000000 = some .failed := by decide
theorem test_decode_step : decodeTableWord 64 0x6000000000000000 = some .step := by decide
theorem test_decode_rdreg : decodeTableWord 64 0x613F000000000000 = some (.rdreg .LASTEVENT) := by decide
theorem test_decode_tick : decodeTableWord 64 0x70000000000005DC = some (.tick 1500) := by decide
theorem test_decode_pwmovf : decodeTableWord 64 0x7100000000000000 = some .pwmovf := by decide
theorem test_decode_takeirq : decodeTableWord 64 0x7200000000000000 = some .takeirq := by decide
theorem test_decode_reset : decodeTableWord 64 0x7F00000000000000 = some .reset := by decide

/-! ## Refusals (R88; TV150 to TV156) -/

/-- What a refusal leaves to see: R250's code and the error flag. -/
def refusal (s : State) : Nat × Bool := (eventCode s.status.lastEvent, s.status.err)

theorem test_refuse_opcode_zero : afterWord 0x0000000000000000 ex refusal = some (0x10, true) := by decide
theorem test_refuse_opcode_first :
    afterWord 0xFF00000000000001 ex refusal = some (0x10, true) := by decide
theorem test_refuse_field_x : afterWord 0x0400000000000001 ex refusal = some (0x11, true) := by decide
theorem test_refuse_range : afterWord 0x111F000000000000 ex refusal = some (0x12, true) := by decide
theorem test_refuse_field_before_range :
    afterWord 0x111F000000000001 ex refusal = some (0x11, true) := by decide
theorem test_refuse_address : afterWord 0x610B000000000000 ex refusal = some (0x13, true) := by decide
theorem test_refuse_setthr_high :
    afterWord 0x4000000000010000 ex refusal = some (0x11, true) := by decide

/-! ## TimerScheduler (TV1 to TV17) -/

theorem test_armabs_last_future :                                     -- TV7
    after (.armabs 0x8000FF) { ex with tau := 0x100 } (·.alarm) = some ⟨true, 0x8000FF⟩ := by decide
theorem test_armabs_first_behind :                                    -- TV8
    after (.armabs 0x800100) { ex with tau := 0x100 } (·.alarm.alarmPending) = some false := by decide
theorem test_armrel_longest :                                         -- TV12
    after (.armrel 0x7FFFFF) ex (·.alarm) = some ⟨true, 0x7FFFFF⟩ := by decide
theorem test_armrel_cancels_match :                                   -- TV13
    after (.armrel 100) { ex with irq.cmpIrq := true, alarm := ⟨true, 0⟩ }
      (fun t => (t.irq.cmpIrq, t.alarm.alarmPending)) = some (false, true) := by decide
theorem test_waital_held :                                            -- TV14
    after .waital (pendingFor 5 ex) (fun t => (t.alarm, t.env.port)) =
      some (⟨true, 5⟩, [0x0300000000000000]) := by decide
theorem test_waital_lets_event_past :                                 -- TICK 5 overtakes NOW
    after .waital { pendingFor 5 ex with env.port := [0x0400000000000000, 0x7000000000000005] }
      (·.env.port) = some [0x7000000000000005, 0x0300000000000000, 0x0400000000000000] := by decide
theorem test_now : after .now { ex with tau := 0x1000005 } (·.status.res) = some 5 := by decide   -- TV1
theorem test_tick_overflow :                                          -- TV2
    after (.tick 0x20) { ex with tau := 0xFFF0 } (fun t => (t.tau, t.irq)) =
      some (0x10010, ⟨false, true, false⟩) := by decide
theorem test_tick_match :                                             -- TV9, its last TICK
    after (.tick 1) { ex with tau := 0x100007F, alarm := ⟨true, 0x1000080⟩ }
      (fun t => (t.irq, now t)) = some (⟨true, false, false⟩, 0x000080) := by decide
theorem test_corrected_read_early :                                   -- TV15
    correctedRead ⟨0x0003, 0x12, true⟩ = 0x130003 := by decide
theorem test_corrected_read_late :                                    -- TV16
    correctedRead ⟨0xFFF0, 0x12, true⟩ = 0x12FFF0 := by decide
theorem test_hw_arm : hwArm 0x012345 0 = ⟨0x2345, 1, true⟩ := by decide           -- TV17

/-! ## TimingPredictor (TV20 to TV43) -/

theorem test_recedge_clamps :                                         -- TV21
    after (.recedge 1100) { ex with timing.lastEdge := 1000, duty.rateLimitedDuty := 64 }
      (fun t => (t.timing.interval, t.duty.rateLimitedDuty, eventCode t.status.lastEvent)) =
      some (200, 32, 0x06) := by decide
theorem test_recedge_wraps :                                          -- TV22
    after (.recedge 0x000100) { ex with timing.lastEdge := 0xFFFF00 }
      (fun t => (t.timing.lastLastEdge, t.timing.lastEdge, t.timing.interval)) =
      some (0xFFFF00, 0x000100, 0x200) := by decide
theorem test_predict_wraps :                                          -- TV26
    after (.predict 30) { ex with timing := ⟨0x000100, 0xFFFF00, 0x200, true, 255⟩ } (·.status.res) =
      some 0x000255 := by decide
theorem test_predict_largest :                                        -- TV28
    after (.predict 30) { ex with timing := ⟨0xFFFFFF, 0, 0xFFFFFF, false, 255⟩ } (·.status.res) =
      some 0xAAAAA8 := by decide
theorem test_deg2t_largest :                                          -- TV31
    after (.deg2t 0xFFFFFF 0 255) ex (·.status.res) = some 0xFEFFFF := by decide
theorem test_deg2t_wraps :                                            -- TV33
    after (.deg2t 0x123456 0xFFFF00 200) ex (·.status.res) = some 0x0E37E3 := by decide
set_option maxRecDepth 4000 in
theorem test_tlimit_divides :                                         -- TV37
    after .tlimit { ex with timing.interval := 2000 } (·.timing.timingDutyLimit) = some 216 := by decide
set_option maxRecDepth 4000 in
theorem test_tlimit_zero :                                            -- TV41
    after .tlimit { ex with timing.interval := 433501 } (·.timing.timingDutyLimit) = some 0 := by decide
set_option maxRecDepth 4000 in
theorem test_restoring_division : restoringDivMod 433500 2000 = (216, 1500) := by decide   -- TV43

/-! ## CommutationStateMachine (TV50 to TV69) -/

theorem test_commut_reverse :                                         -- TV58, from TV57's end
    after .commut { powered reverseConfig with
        comm := ⟨.step .S0, some .A, some .B, some .C, false⟩, sw := ⟨.high, .low, .off⟩ }
      (fun t => (t.comm, t.sw)) =
      some (⟨.step .S5, some .C, some .B, some .A, true⟩, ⟨.off, .low, .high⟩) := by decide
theorem test_commut_low_side :                                        -- TV64
    after .commut (powered lowSideConfig) (fun t => (t.comm.pwmPhase, t.comm.fixedPhase, t.sw)) =
      some (some .B, some .A, ⟨.high, .low, .off⟩) := by decide
theorem test_alloff :                                                 -- TV69
    after .alloff { powered with
        comm := ⟨.step .S3, some .B, some .A, some .C, false⟩, sw := ⟨.low, .high, .off⟩ }
      (fun t => (t.comm, t.sw)) =
      some (⟨.allOff, none, none, none, false⟩, ⟨.off, .off, .off⟩) := by decide

/-! ## ZeroCrossWaitEngine (TV70 to TV87) -/

theorem test_zcarm_start_delay :                                      -- TV71
    after .zcarm { ex with tau := 10000, timing.interval := 2000, start.startDelay := 8 }
      (fun t => (t.zc, t.alarm)) = some (⟨16, 16, .primary, 10000⟩, ⟨true, 10378⟩) := by decide
theorem test_zcarm_empty_window :                                     -- TV72
    after .zcarm { ex with tau := 10000 } (fun t => (t.zc.conf, t.zc.width, t.alarm.alarmPending)) =
      some (2, 2, false) := by decide
theorem test_demagp_done :                                            -- TV74
    after .demagp { pendingFor 150 { ex with tau := 10100 } with
        comm.preLevel := true, timing.interval := 2000, zc.zcT0 := 10000, env.cmpIn := [true] }
      (fun t => (t.status.res, t.alarm)) = some (1, ⟨true, 11500⟩) := by decide
theorem test_demagp_timeout :                                         -- TV75
    after .demagp { ex with env.cmpIn := [true, false] } (fun t => (t.status.res, t.env.cmpIn)) =
      some (2, [false]) := by decide
theorem test_edgep_confirmed :                                        -- TV76, its last sample
    after .edgep { pendingFor 9 ex with zc := ⟨1, 2, .primary, 0⟩, env.cmpIn := [true] }
      (fun t => (t.zc.conf, t.status.res)) = some (0, 1) := by decide
theorem test_edgep_saturates :                                        -- TV77's bound, conf = width
    after .edgep { pendingFor 9 ex with
        comm.preLevel := true, zc := ⟨3, 3, .primary, 0⟩, env.cmpIn := [true] }
      (fun t => (t.zc.conf, t.status.res)) = some (3, 0) := by decide
theorem test_confirm :                                                -- TV85
    after .confirm { ex with tau := 9500, timing.lastEdge := 8000, timing.interval := 4000 }
      (fun t => (t.timing.interval, t.timing.timingDutyLimit, t.alarm)) =
      some (1500, 255, ⟨true, 10391⟩) := by decide
theorem test_demagto :                                                -- TV82
    after .demagto { driven with start.goodies := 3 }
      (fun t => (t.sw.a, t.wave.pwmSuppressed, t.wave.demagSkip, t.start.goodies,
        eventCode t.status.lastEvent)) = some (.off, true, true, 0, 0x03) := by decide
theorem test_zcto_followup :                                          -- TV79
    after .zcto { ex with tau := 20000, timing.interval := 2000, zc := ⟨5, 16, .primary, 0⟩ }
      (fun t => (t.status.res, t.zc.width, t.zc.zcWindow, t.alarm, eventCode t.status.lastEvent)) =
      some (3, 5, .followup, ⟨true, 20500⟩, 0x02) := by decide
theorem test_zcto_final :                                             -- TV81
    after .zcto { ex with zc := ⟨16, 16, .primary, 0⟩, start.supState := .running, start.goodies := 9
                          start.startDelay := 250 }
      (fun t => (t.status.res, t.ind.faultInd, t.start.goodies, t.start.startDelay)) =
      some (4, true, 0, 255) := by decide
theorem test_skiparm :                                                -- TV83
    after .skiparm { ex with tau := 500, start.powerSkipCount := 2 }
      (fun t => (t.start.powerSkipCount, t.alarm)) = some (1, ⟨true, 4500⟩) := by decide
theorem test_skiparm_at_zero :                                        -- TV84
    after .skiparm ex (fun t => (t.start.powerSkipCount, t.alarm)) = some (0, ⟨true, 4000⟩) := by decide
set_option maxRecDepth 4000 in
theorem test_feedbk :                                                 -- TV86
    after .feedbk { ex with tau := 3000, timing.lastEdge := 1000 }
      (fun t => (t.timing.interval, t.timing.timingDutyLimit)) = some (2000, 216) := by decide
theorem test_zcWidth :                                                -- TV87
    [0, 7, 8, 11, 40, 63, 64, 65, 2000].map (zcWidth Config.ex) =
      [2, 2, 2, 2, 10, 15, 16, 16, 16] := by decide

/-! ## DutyController and PwmWaveformGenerator (TV90 to TV110) -/

theorem test_recomp_slow_cap :                                        -- TV94
    after .recomp { ex with duty.commandedDuty := 10, duty.rateLimitedDuty := 200 }
      (fun t => (t.duty.pwmMode, t.duty.onTimeC, t.duty.offTimeC, t.duty.rateLimitedDuty)) =
      some (.normal, 0xFFF5, 0xFF0A, 20) := by decide
theorem test_recomp_doubled :                                         -- TV98
    after .recomp { ex doubleConfig with
        duty.commandedDuty := 100, duty.rateLimitedDuty := 255, start.supState := .starting }
      (fun t => (t.duty.pwmMode, t.duty.onTimeC, t.duty.offTimeC)) =
      some (.long, 0xFF37, 0xFEC9) := by decide
theorem test_setthr_bounded :                                         -- TV106
    after (.setthr 300) tracking (·.duty.commandedDuty) = some 255 := by decide
theorem test_setthr_signal_loss :                                     -- TV107, the 50th command
    after (.setthr 100) { ex with duty.rcTimeout := 49 }
      (fun t => (t.duty.rcTimeout, eventCode t.status.lastEvent, t.duty.commandedDuty)) =
      some (50, 0x07, 0) := by decide
theorem test_pwmovf : after .pwmovf ex (·.irq) = some ⟨false, false, true⟩ := by decide   -- R257
theorem test_takeirq_waveform_off_phase :                             -- TV102, its second run
    after .takeirq { driven with
        irq.pwmIrq := true, duty.pwmMode := .normal, duty.onTimeC := 0xFFBF, duty.offTimeC := 0xFF40
        wave := ⟨true, true, 0, 0xBF, true, false, false⟩ }
      (fun t => (t.wave, t.sw.a)) =
      some (⟨true, false, 0, 0x40, false, false, false⟩, .off) := by decide

/-! ## Interrupts (TV140 to TV142) -/

theorem test_takeirq_second :                                         -- TV140, its second TAKEIRQ
    after .takeirq { pendingFor 0 ex with irq := ⟨true, true, false⟩ }
      (fun t => (t.irq, t.alarm.alarmPending, t.status.res)) =
      some (⟨false, true, false⟩, false, 1) := by decide

/-! ## StartupSupervisor and sequencer (TV120 to TV133) -/

/-- What a restart leaves to see (TV129). -/
def startView (t : State) : SeqPc × SupState × Word16 × Byte :=
  (t.seq.pc, t.start.supState, t.duty.rateLimitedDuty, t.start.powerSkipCount)

theorem test_step_idle_restarts :                                     -- TV129
    after .step ex startView = some (.commutate, .starting, 16, 2) := by decide
theorem test_restart :                                                -- P5 line 2, from a driven state
    after .restart driven (fun t => (startView t, t.sw)) =
      some ((.commutate, .starting, 16, 2), ⟨.off, .off, .off⟩) := by decide
theorem test_startfr :                                                -- TV123's values
    after .startfr { tracking with start.goodies := 3 }
      (fun t => (t.start.goodies, t.duty.rateLimitedDuty, t.duty.onTimeC, t.seq)) =
      some (0, 16, 0xFFEF, ⟨.commutate, 0⟩) := by decide
theorem test_eval_cool_cap :                                          -- TV125
    after .eval { tracking with
        duty.powerOnFlag := true, duty.rateLimitedDuty := 60
        start := ⟨2, 0, 80, 80, 0, 0, .starting⟩ }
      (fun t => (t.start.startModulate, t.duty.rateLimitedDuty)) = some (96, 32) := by decide
theorem test_eval_fails :                                             -- TV126
    after .eval { tracking with
        duty.powerOnFlag := true, duty.rateLimitedDuty := 60
        start := ⟨2, 0, 240, 240, 0, 0, .starting⟩ }
      (fun t => (t.start, t.seq.pc, eventCode t.status.lastEvent)) =
      some (⟨3, 0, 0, 0, 0, 0, .failed⟩, .failed, 0x05) := by decide
theorem test_failed :                                                 -- P4 line 5
    after .failed { driven with duty.dutyTracking := true }
      (fun t => (t.sw, t.wave.pwmEnabled, t.duty.dutyTracking, t.seq.pc)) =
      some (⟨.off, .off, .off⟩, false, false, .failed) := by decide
theorem test_step_demag_timeout :                                     -- TV130, its second STEP
    after .step { ex with
        seq := ⟨.demagWait, 0⟩, zc := ⟨2, 2, .primary, 0⟩, env.cmpIn := [false] }
      (fun t => (t.wave.demagSkip, t.timing.interval, eventCode t.status.lastEvent, t.seq)) =
      some (true, 200, 0x06, ⟨.commutate, 1⟩) := by decide
theorem test_step_cycle_end :                                         -- TV131
    after .step { ex with seq := ⟨.commWait, 5⟩ } (·.seq) = some ⟨.evaluate, 0⟩ := by decide

/-! ## Reading elements and RESET (TV157 to TV159, R280) -/

theorem test_rdreg_flags : after (.rdreg .FLAGS) ex (·.status.res) = some 0x000002 := by decide     -- TV158
theorem test_rdreg_offtime : after (.rdreg .OFFTIMEC) ex (·.status.res) = some 0x00FF00 := by decide -- TV159
theorem test_reset :
    after .reset { driven with env.tauIn := [7], timing.interval := 9 } id =
      some { ex with tau := 7 } := by decide

/-! ## Assembler (R90, TV160; R91) -/

theorem test_assemble : assembleLine "DEG2T 2000, 0, 64" = .word 0x12400000000007D0 := by decide
theorem test_assemble_hex :                                           -- R90, P3 line 9
    assembleLine "TICK 0x10000 ; one overflow" = .word 0x7000000000010000 := by decide
theorem test_waitt : waitt 10 (pendingFor 5 ex) = [.tick 10, .takeirq] := by decide   -- R91

/-! ## Witnesses: for each statement with hypotheses, states and operands that meet them together,
clause by clause and at the ends of each clause's range -/

theorem inv_ex : Inv ex where
  phases := ⟨rfl, rfl, rfl⟩
  switches := fun p => .inl (by cases p <;> rfl)
  conf := by decide
  rcTimeout := by decide
  commanded := by decide
  limit := by decide
  ceiling := by decide

theorem inv_driven : Inv driven where
  phases := ⟨rfl, rfl, rfl⟩
  switches := fun p => by
    cases p
    · exact .inr (.inl ⟨rfl, rfl⟩)
    · exact .inr (.inr ⟨rfl, rfl⟩)
    · exact .inl rfl
  conf := by decide
  rcTimeout := by decide
  commanded := by decide
  limit := by decide
  ceiling := by decide

theorem detectorInv_ex : DetectorInv ex where
  confLe := fun h => absurd h (by decide)
  confPos := fun h => absurd h (by decide)
  stall := fun h => absurd h (by decide)

/-- The detector in EDGE_FILTER at its lower bound, conf = 1. -/
def filtering : State :=
  { pendingFor 9 ex with seq.pc := .edgeFilter, zc := ⟨1, 2, .primary, 0⟩, env.cmpIn := [true] }

theorem detectorInv_filtering : DetectorInv filtering where
  confLe := fun _ => by decide
  confPos := fun _ => by decide
  stall := fun h => absurd h (by decide)

theorem witness_DecodeOfEncodeIsTheInstruction :
    (Instr.predict 0).wellFormed = true ∧ (Instr.predict 30).wellFormed = true ∧
    (Instr.deg2t 0xFFFFFF 0xFFFFFF 255).wellFormed = true ∧ (Instr.setthr 0xFFFF).wellFormed = true := by
  decide

theorem witness_EncodeOfDecodeIsTheWord :
    decode 0x111E000000000000 = .ok (.predict 30) ∧
    decode 0x12FFFFFFFFFFFFFF = .ok (.deg2t 0xFFFFFF 0xFFFFFF 255) := by decide

/-- One word for each clause, and for each field of the second. -/
theorem witness_RefusalReasonsInOrder :
    (∀ o, (opRow o).code ≠ opcField 0xFF00000000000001) ∧
    ((opRow .now).code = opcField 0x0400000000000001 ∧ (opRow .now).xBits = 0 ∧
      xField 0x0400000000000001 ≠ 0) ∧
    ((opRow .now).code = opcField 0x0400000001000000 ∧ (opRow .now).yBits = 0 ∧
      yField 0x0400000001000000 ≠ 0) ∧
    ((opRow .now).code = opcField 0x0401000000000000 ∧ (opRow .now).bBits = 0 ∧
      bField 0x0401000000000000 ≠ 0) ∧
    (opcField 0x4000000000010000 = 0x40 ∧ 0x10000 ≤ (xField 0x4000000000010000).toNat) ∧
    (opcField 0x111F000000000000 = 0x11 ∧ xField 0x111F000000000000 = 0 ∧
      yField 0x111F000000000000 = 0 ∧ 30 < (bField 0x111F000000000000).toNat) ∧
    (opcField 0x610B000000000000 = 0x61 ∧ xField 0x610B000000000000 = 0 ∧
      yField 0x610B000000000000 = 0 ∧ ∀ r : Reg, r.addr ≠ bField 0x610B000000000000) := by
  refine ⟨fun o => by cases o <;> decide, by decide, by decide, by decide, by decide, by decide,
    by decide, by decide, by decide, fun r => by cases r <;> decide⟩

/-- One word for each reason: TV150, TV152, TV153, TV155. -/
theorem witness_RefusedWordOnlyRecordsTheReason :
    ({ driven with env.port := [0x0000000000000000] } : State).env.port = [0x0000000000000000] ∧
    decode 0x0000000000000000 = .error .illegalOpcode ∧
    decode 0x0400000000000001 = .error .reservedField ∧
    decode 0x111F000000000000 = .error .operandRange ∧
    decode 0x610B000000000000 = .error .reservedAddress := by decide

theorem witness_StepPerformsTheDecodedWord :
    ({ driven with env.port := [0x2000000000000000] } : State).env.port = [0x2000000000000000] ∧
    decode 0x2000000000000000 = .ok .commut ∧
    0x12FFFFFFFFFFFFFF < 2 ^ 64 ∧
    decodeTableWord 64 0x12FFFFFFFFFFFFFF = some (.deg2t 0xFFFFFF 0xFFFFFF 255) ∧
    driven.env.port = [] := by decide

theorem witness_ResetSetsEveryElement :
    ({ driven with env.tauIn := [7] } : State).env.tauIn = [7] := by decide

/-- The four ends of the two ranges: distances 0, 2^23, 1 and 2^23-1. -/
theorem witness_ArmAbsoluteSetsTheAlarm :
    distance24 0x100 0x100 = 0 ∧ distance24 0x800100 0x100 = 0x800000 ∧
    distance24 0x101 0x100 = 1 ∧ distance24 0x8000FF 0x100 = 0x7FFFFF ∧
    distance24 0x000000 0xFFFFFF = 1 := by decide

theorem witness_ArmRelativeSetsTheAlarm :
    ((0 : Time) = 0 ∧ 0x800000 ≤ (0x800000 : Time).toNat) ∧
    (1 ≤ (1 : Time).toNat ∧ (1 : Time).toNat < 0x800000) ∧
    (1 ≤ (0x7FFFFF : Time).toNat ∧ (0x7FFFFF : Time).toNat < 0x800000) := by decide

/-- Both ends of the range of d; n = d and n = d - 1 are the two outcomes. -/
theorem witness_FutureAlarmElapsesExactlyThen :
    (1 ≤ (1 : Time).toNat ∧ (1 : Time).toNat < 0x800000 ∧ driven.irq.pwmIrq = false) ∧
    (1 ≤ (0x7FFFFF : Time).toNat ∧ (0x7FFFFF : Time).toNat < 0x800000) ∧
    ((0x7FFFFF : Time).toNat ≤ (0x7FFFFF : Time).toNat) ∧
    ((0x7FFFFE : Time).toNat < (0x7FFFFF : Time).toNat) := by decide

theorem witness_WaitCompletesWhenElapsed : driven.alarm.alarmPending = false := by decide

theorem witness_HeldWaitStaysAtThePort :
    (pendingFor 5 driven).alarm.alarmPending = true ∧
    [0x0400000000000000, 0x7000000000000005].filter isEventWord = [0x7000000000000005] := by decide

/-- The distance at MIN_INTERVAL and one below it. -/
theorem witness_RecordEdgeClampsTheInterval :
    ex.cfg.MIN_INTERVAL.toNat ≤ distance24 1200 1000 ∧
    distance24 1199 1000 < ex.cfg.MIN_INTERVAL.toNat := by decide

theorem witness_PredictGivesTheNextCrossing :
    (0 : Byte).toNat ≤ 30 ∧ (30 : Byte).toNat ≤ 30 := by decide

theorem witness_FastPathsAgree :
    (0xFFFF : Time).toNat < 65536 ∧
    ({ ex with timing.interval := 0xFFFF } : State).timing.interval.toNat < 65536 ∧
    (30 : Byte).toNat ≤ 30 := by decide

theorem witness_RestoringDivisionIsExact :
    1 ≤ (1 : Time).toNat ∧ 1 ≤ (0xFFFFFF : Time).toNat := by decide

/-- The interval one below the threshold of 1700, and at it. -/
theorem witness_TimingLimitIsTheCappedReciprocal :
    ({ ex with timing.interval := 1699 } : State).timing.interval.toNat < 1700 ∧
    1700 ≤ ({ ex with timing.interval := 1700 } : State).timing.interval.toNat := by decide

/-- The two ends of the forward table, one row of the reverse one, and ALLOFF in both directions. -/
theorem witness_CommutationFollowsTheTable :
    (∃ r ∈ specTable140, ∃ n ∈ specTable140, driven.comm.csm = .step r.state ∧
      n.state = (if driven.cfg.REVERSE then r.reverse else r.forward)) ∧
    (∃ r ∈ specTable140, ∃ n ∈ specTable140,
      let s : State := { ex reverseConfig with comm := ⟨.step .S5, some .C, some .B, some .A, true⟩ }
      s.comm.csm = .step r.state ∧ n.state = (if s.cfg.REVERSE then r.reverse else r.forward)) ∧
    (∃ r ∈ specTable140, ∃ n ∈ specTable140, ex.comm.csm = .allOff ∧ n.state = .S0 ∧
      r.state = (if ex.cfg.REVERSE then .S1 else .S5)) ∧
    (∃ r ∈ specTable140, ∃ n ∈ specTable140, (ex reverseConfig).comm.csm = .allOff ∧ n.state = .S0 ∧
      r.state = (if (ex reverseConfig).cfg.REVERSE then .S1 else .S5)) := by
  refine ⟨⟨⟨.S0, .A, .B, .C, .S1, .S5⟩, by simp [specTable140], ⟨.S1, .A, .C, .B, .S2, .S0⟩,
      by simp [specTable140], rfl, rfl⟩,
    ⟨⟨.S5, .C, .B, .A, .S0, .S4⟩, by simp [specTable140], ⟨.S4, .C, .A, .B, .S5, .S3⟩,
      by simp [specTable140], rfl, rfl⟩,
    ⟨⟨.S5, .C, .B, .A, .S0, .S4⟩, by simp [specTable140], ⟨.S0, .A, .B, .C, .S1, .S5⟩,
      by simp [specTable140], rfl, rfl, rfl⟩,
    ⟨⟨.S1, .A, .C, .B, .S2, .S0⟩, by simp [specTable140], ⟨.S0, .A, .B, .C, .S1, .S5⟩,
      by simp [specTable140], rfl, rfl, rfl⟩⟩

theorem witness_CommutationSwitchesTheStage :
    Inv ex ∧ Inv driven ∧ driven.wave.demagSkip = false ∧ driven.duty.powerOnFlag = true :=
  ⟨inv_ex, inv_driven, rfl, rfl⟩

theorem witness_DemagTimeoutSkipsOneCommutation :
    (Inv powered ∧ powered.duty.powerOnFlag = true) ∧
    (Inv driven ∧ driven.duty.powerOnFlag = true) := by
  refine ⟨⟨⟨⟨rfl, rfl, rfl⟩, fun p => .inl (by cases p <;> rfl), ?_, ?_, ?_, ?_, ?_⟩, rfl⟩,
    inv_driven, rfl⟩ <;> decide

theorem witness_InvariantMeansSafe :
    (Inv ex ∧ ex.comm.csm = .allOff) ∧ (Inv driven ∧ driven.comm.csm = .step .S0) ∧
    (driven.comm.pwmPhase ≠ some .C ∧ driven.comm.fixedPhase ≠ some .C) :=
  ⟨⟨inv_ex, rfl⟩, ⟨inv_driven, rfl⟩, by decide⟩

theorem witness_EveryStepKeepsTheInvariant :
    ∃ s s' : State, Inv s ∧ s.env.port = [0x2000000000000000] ∧ step s = .next s' ∧
      s'.comm.csm = .step .S1 :=
  ⟨{ driven with env.port := [0x2000000000000000] }, _, ⟨inv_driven.phases, inv_driven.switches,
    inv_driven.conf, inv_driven.rcTimeout, inv_driven.commanded, inv_driven.limit,
    inv_driven.ceiling⟩, rfl, rfl, rfl⟩

theorem witness_EveryRunIsSafe : Inv ex ∧ Inv driven := ⟨inv_ex, inv_driven⟩

theorem witness_DetectorBoundsAreKept :
    (∃ t, DetectorInv filtering ∧ Instr.zcarm ≠ .edgep ∧ exec .zcarm filtering = .next t) ∧
    (∃ t, DetectorInv ex ∧ Instr.step ≠ .edgep ∧ exec .step ex = .next t) :=
  ⟨⟨_, detectorInv_filtering, by decide, rfl⟩, ⟨_, detectorInv_ex, by decide, rfl⟩⟩

theorem witness_HandlerInsideCommutationIsTheSame : Inv ex ∧ Inv driven := ⟨inv_ex, inv_driven⟩

theorem witness_PollTakesOneSample :
    filtering.env.cmpIn = [true] ∧ ex.env.cmpIn = [] := by decide

/-- A sample for each outcome: none needed, equal to preLevel, different from it. -/
theorem witness_DemagPollOutcomes :
    ex.alarm.alarmPending = false ∧
    (let s : State := { pendingFor 9 driven with env.cmpIn := [true] }
     s.alarm.alarmPending = true ∧ (drawCmp s.env).1 = s.comm.preLevel) ∧
    (let s : State := { pendingFor 9 driven with env.cmpIn := [false] }
     s.alarm.alarmPending = true ∧ (drawCmp s.env).1 ≠ s.comm.preLevel) := by decide

/-- As for DEMAGP; `filtering` is at conf = 1, where the different sample confirms. -/
theorem witness_EdgePollOutcomes :
    ex.alarm.alarmPending = false ∧
    (let s : State := { filtering with comm.preLevel := true, zc.conf := 2 }
     s.alarm.alarmPending = true ∧ (drawCmp s.env).1 = s.comm.preLevel ∧ s.zc.conf = s.zc.width) ∧
    (filtering.alarm.alarmPending = true ∧ (drawCmp filtering.env).1 ≠ filtering.comm.preLevel) := by
  decide

/-- conf one below the width, conf at the width, and the follow-up window. -/
theorem witness_EdgeTimeoutBranches :
    (let s : State := { ex with zc := ⟨15, 16, .primary, 0⟩ }
     s.zc.zcWindow = .primary ∧ s.zc.conf.toNat < s.zc.width.toNat) ∧
    (let s : State := { ex with zc := ⟨16, 16, .primary, 0⟩ }
     s.zc.width.toNat ≤ s.zc.conf.toNat) ∧
    (let s : State := { ex with zc := ⟨5, 5, .followup, 0⟩ }
     s.zc.zcWindow = .followup) := by decide

/-- Tracking on; tracking off one below the ceiling, and at it. -/
theorem witness_ThrottleCommand :
    tracking.duty.dutyTracking = true ∧
    (let s : State := { ex with duty.rcTimeout := 49 }
     s.duty.dutyTracking = false ∧ s.duty.rcTimeout.toNat ≤ s.cfg.RC_TIMEOUT_CEIL.toNat) ∧
    (let s : State := { ex with duty.rcTimeout := 50 }
     s.duty.dutyTracking = false ∧ s.duty.rcTimeout.toNat ≤ s.cfg.RC_TIMEOUT_CEIL.toNat) := by decide

/-- The clamped throttle of R191, R192 in a state. -/
def throttle (s : State) : Nat :=
  min (min (if s.duty.rcTimeout = s.cfg.RC_TIMEOUT_CEIL then 0 else s.duty.commandedDuty.toNat)
    s.timing.timingDutyLimit.toNat) s.duty.rateLimitedDuty.toNat

/-- T = 0, 1, MAX_POWER - 1 and MAX_POWER. -/
theorem witness_RecomputeDutyCases :
    throttle ex = 0 ∧
    throttle { ex with duty.commandedDuty := 1, duty.rateLimitedDuty := 255 } = 1 ∧
    throttle { ex with duty.commandedDuty := 254, duty.rateLimitedDuty := 255 } = 254 ∧
    throttle { ex with duty.commandedDuty := 255, duty.rateLimitedDuty := 255 } =
      ex.cfg.MAX_POWER.toNat := by decide

theorem witness_ZeroAndFullThrottle :
    ex.duty.commandedDuty = 0 ∧
    (let s : State := { tracking with duty.rcTimeout := 50 }
     s.duty.rcTimeout = s.cfg.RC_TIMEOUT_CEIL) ∧
    (let s : State := { ex with duty.commandedDuty := 255, duty.rateLimitedDuty := 255 }
     s.timing.timingDutyLimit.toNat ≤ s.cfg.MAX_POWER.toNat ∧
     s.cfg.MAX_POWER.toNat ≤ s.duty.commandedDuty.toNat ∧
     s.timing.timingDutyLimit = s.cfg.MAX_POWER ∧
     s.cfg.MAX_POWER.toNat ≤ s.duty.rateLimitedDuty.toNat ∧
     s.duty.rcTimeout ≠ s.cfg.RC_TIMEOUT_CEIL ∧
     after .recomp s (·.duty.fullPowerFlag) = some true) := by decide

/-- A state with these request flags. -/
def requesting (f : IrqFlags) : State := { ex with irq := f }

theorem witness_TakeInterruptByPriority :
    (requesting ⟨true, true, true⟩).irq.pwmIrq = true ∧
    ((requesting ⟨true, true, false⟩).irq.pwmIrq = false ∧
      (requesting ⟨true, true, false⟩).irq.cmpIrq = true) ∧
    ((requesting ⟨false, true, false⟩).irq.pwmIrq = false ∧
      (requesting ⟨false, true, false⟩).irq.cmpIrq = false ∧
      (requesting ⟨false, true, false⟩).irq.ovfIrq = true) ∧
    ex.irq = ⟨false, false, false⟩ := by decide

/-- A driven state with the PWM request set, in a mode and at a point of the waveform. -/
def atOverflow (m : PwmMode) (w : WaveState) : State :=
  { driven with irq.pwmIrq := true, duty.pwmMode := m, wave := w }

/-- The request with the generator off; then, with it on, every mode and every branch of R200. -/
theorem witness_PwmHandlerAdvancesTheWaveform :
    ((requesting ⟨false, false, true⟩).irq.pwmIrq = true ∧
      (requesting ⟨false, false, true⟩).wave.pwmEnabled = false) ∧
    (let s := atOverflow .off ⟨true, false, 0, 0, false, false, false⟩
     s.irq.pwmIrq = true ∧ s.wave.pwmEnabled = true ∧ s.duty.pwmMode = .off) ∧
    (let s := atOverflow .full ⟨true, false, 0, 0, false, false, false⟩
     s.irq.pwmIrq = true ∧ s.wave.pwmEnabled = true ∧ s.duty.pwmMode = .full) ∧
    (let s := atOverflow .long ⟨true, true, 1, 0, true, false, false⟩
     s.irq.pwmIrq = true ∧ s.wave.pwmEnabled = true ∧ s.duty.pwmMode = .long ∧ s.wave.pwmExt ≠ 0) ∧
    (let s := atOverflow .normal ⟨true, true, 0, 0, true, false, false⟩
     s.irq.pwmIrq = true ∧ s.wave.pwmEnabled = true ∧ s.duty.pwmMode = .normal ∧
     s.wave.pwmExt = 0 ∧ s.wave.wavePhase = true) ∧
    (let s := atOverflow .normal ⟨true, false, 0, 0, false, false, false⟩
     s.irq.pwmIrq = true ∧ s.wave.pwmEnabled = true ∧ s.duty.pwmMode = .normal ∧
     s.wave.pwmExt = 0 ∧ s.wave.wavePhase = false) := by decide

theorem witness_ThreeTakesClearEveryRequest :
    (requesting ⟨true, true, true⟩).irq.cmpIrq = true := by decide

/-- An evaluation with these goodies, ceiling and counters, powered or not. -/
def evaluating (on : Bool) (goodies : Byte) (ceiling : Word16) (counters : Byte) : State :=
  { tracking with
    duty.powerOnFlag := on, duty.rateLimitedDuty := ceiling
    start := ⟨goodies, 0, counters, counters, 0, 0, .starting⟩ }

/-- Branch (1); (2) at ENOUGH_GOODIES = 8; (3) and (4) at 7, unpowered with goodies 1, and both
counters wrapping (TV126) or not (TV124). -/
theorem witness_EvaluationBranches :
    ((evaluating false 0 40 0).duty.powerOnFlag = false ∧ (evaluating false 0 40 0).start.goodies = 0) ∧
    (ex.cfg.ENOUGH_GOODIES.toNat ≤ (evaluating true 8 40 32).start.goodies.toNat) ∧
    (let s := evaluating true 7 0 48
     s.duty.powerOnFlag = true ∧ s.start.goodies.toNat < s.cfg.ENOUGH_GOODIES.toNat ∧
     s.duty.rateLimitedDuty = 0) ∧
    (let s := evaluating false 1 16 240
     s.start.goodies ≠ 0 ∧ s.start.goodies.toNat < s.cfg.ENOUGH_GOODIES.toNat ∧
     s.duty.rateLimitedDuty ≠ 0 ∧ s.start.startModulate + s.cfg.START_MOD_INC = 0 ∧
     s.start.startFail + s.cfg.START_FAIL_INC = 0) ∧
    (let s := evaluating true 7 40 80
     s.duty.powerOnFlag = true ∧ s.start.goodies.toNat < s.cfg.ENOUGH_GOODIES.toNat ∧
     s.duty.rateLimitedDuty ≠ 0 ∧ s.start.startModulate + s.cfg.START_MOD_INC ≠ 0) := by decide

theorem witness_EvaluationLaws :
    (ex.cfg.ENOUGH_GOODIES.toNat ≤ (evaluating true 8 0 0).start.goodies.toNat) ∧
    (let s := evaluating true 7 60 240
     s.start.goodies.toNat < s.cfg.ENOUGH_GOODIES.toNat ∧ s.duty.rateLimitedDuty ≠ 0 ∧
     s.duty.powerOnFlag = true ∧ s.start.startModulate + s.cfg.START_MOD_INC = 0 ∧
     s.start.startFail + s.cfg.START_FAIL_INC = 0) := by decide

/-- A state in which the sequencer stands at a pc. -/
def atPc (p : SeqPc) : State := { driven with seq := ⟨p, 5⟩ }

theorem witness_FailedIsTerminal :
    (atPc .failed).seq.pc = .failed ∧ Instr.setthr 100 ≠ .reset ∧ Instr.setthr 100 ≠ .restart ∧
    Instr.setthr 100 ≠ .startfr ∧ Instr.setthr 100 ≠ .eval := by decide

/-- Each state of the sequencer; STALL_DELAY at the last alarm (1) and at the first (STALL_REPEATS). -/
theorem witness_StepRunsTheStatesOperation :
    (atPc .idle).seq.pc = .idle ∧ (atPc .commutate).seq.pc = .commutate ∧
    (atPc .evaluate).seq.pc = .evaluate ∧
    (let s : State := { atPc .stallDelay with start.stallCount := 1 }
     s.seq.pc = .stallDelay ∧ s.alarm.alarmPending = false ∧ 1 ≤ s.start.stallCount.toNat) ∧
    (let s : State := { atPc .stallDelay with start.stallCount := 4 }
     s.seq.pc = .stallDelay ∧ s.alarm.alarmPending = false ∧ 1 ≤ s.start.stallCount.toNat) := by decide

theorem witness_StepInAWait :
    ((pendingFor 5 (atPc .skipWait)).alarm.alarmPending = true ∧
      (pendingFor 5 (atPc .skipWait)).seq.pc = .skipWait) ∧
    ((pendingFor 5 (atPc .commWait)).alarm.alarmPending = true ∧
      (pendingFor 5 (atPc .commWait)).seq.pc = .commWait) ∧
    ((pendingFor 5 (atPc .stallDelay)).alarm.alarmPending = true ∧
      (pendingFor 5 (atPc .stallDelay)).seq.pc = .stallDelay) ∧
    ((atPc .skipWait).alarm.alarmPending = false ∧ (atPc .skipWait).seq.pc = .skipWait) ∧
    ((atPc .commWait).alarm.alarmPending = false ∧ (atPc .commWait).seq.pc = .commWait) := by decide

/-- Each poll's outcomes: WAIT, DONE or CONFIRMED, TIMEOUT, and both outcomes of ZCTO. -/
theorem witness_StepPollsOnce :
    (atPc .demagWait).seq.pc = .demagWait ∧
    after .demagp { pendingFor 9 (atPc .demagWait) with env.cmpIn := [false] } (·.status.res) = some 0 ∧
    after .demagp { pendingFor 9 (atPc .demagWait) with env.cmpIn := [true] } (·.status.res) = some 1 ∧
    after .demagp { atPc .demagWait with env.cmpIn := [true] } (·.status.res) = some 2 ∧
    filtering.seq.pc = .edgeFilter ∧
    after .edgep { filtering with comm.preLevel := true } (·.status.res) = some 0 ∧
    after .edgep filtering (·.status.res) = some 1 ∧
    after .edgep { filtering with alarm.alarmPending := false } (·.status.res) = some 2 ∧
    after .zcto { filtering with alarm.alarmPending := false } (·.status.res) = some 3 ∧
    after .zcto { filtering with alarm.alarmPending := false, zc.conf := 2 } (·.status.res) = some 4 := by
  decide

theorem witness_PortOperationsKeepTheSequencer :
    Instr.edgep ≠ .step ∧ Instr.edgep ≠ .restart ∧ Instr.edgep ≠ .startfr ∧ Instr.edgep ≠ .eval ∧
    Instr.edgep ≠ .failed ∧ Instr.edgep ≠ .reset := by decide

theorem witness_EveryOperationCompletes :
    (∀ n, Instr.step ≠ .tick n) ∧ Instr.step ≠ .reset := ⟨fun _ => by simp, by simp⟩

/-- TV15: a counted wrap pending at the counter's value 3, at the last value that counts it, and read
before the wrap; the two ends of the advance's range. -/
theorem witness_CorrectedReadIsTheClock :
    (clockRepresents ⟨0x0003, 0x12, true⟩ 0x130003 = true ∧ (0x0003 : Word16).toNat < 0x8000) ∧
    (clockRepresents ⟨0x7FFF, 0x12, true⟩ 0x137FFF = true ∧ (0x7FFF : Word16).toNat < 0x8000) ∧
    (clockRepresents ⟨0x8000, 0x12, false⟩ 0x128000 = true ∧ 0x8000 ≤ (0x8000 : Word16).toNat) ∧
    (clockRepresents ⟨0xFFFF, 0xFF, false⟩ 0xFFFFFF = true ∧ 0xFFFF < 0x10000) ∧
    (clockRepresents ⟨0x0003, 0x12, true⟩ 0x130003 = true ∧ 0xFFFC < 0x10000 ∧
      (0x0003 : Word16).toNat + 0xFFFC < 0x10000) := by decide

theorem witness_ExtendedAlarmElapsesOnTime :
    (1 ≤ distance24 (0x101 : Time).toNat 0x100 ∧ distance24 (0x101 : Time).toNat 0x100 < 0x800000) ∧
    (1 ≤ distance24 (0x8000FF : Time).toNat 0x100 ∧
      distance24 (0x8000FF : Time).toNat 0x100 < 0x800000) := by decide

end Sys2Proof.Tests
end

/-! # Proofs of the family 10_state.md -/

namespace Sys2Proof.Machine

/-! ## Narrowed values

A value narrowed to a register is no larger than the integer it came from (00_scope.md R9, R10). -/

theorem toWord16_toNat_le (n : Nat) : (toWord16 n).toNat ≤ n := by
  simpa using Nat.mod_le n _

theorem toByte_toNat_le (n : Nat) : (toByte n).toNat ≤ n := by
  simpa using Nat.mod_le n _

/-- R124: the timing limit never exceeds MAX_POWER. -/
theorem timingDutyLimitOf_le (c : Config) (interval : Time) :
    (timingDutyLimitOf c interval).toNat ≤ c.MAX_POWER.toNat := by
  unfold timingDutyLimitOf
  split
  · exact le_rfl
  · exact (toWord16_toNat_le _).trans (min_le_right _ _)

/-- R194: the slow-throttle cap never raises the ceiling. -/
theorem cappedCeiling_le (t : Nat) (ceiling : Word16) :
    (cappedCeiling t ceiling).toNat ≤ ceiling.toNat := by
  by_cases ht : t = 0
  · simp [cappedCeiling, ht]
  · rw [cappedCeiling_toNat t ceiling ht]
    exact min_le_left _ _

/-- R225(4): either starting cap is at most MAX_POWER. -/
theorem startingCap_le (s : State) (m : Byte) :
    (startingCap s.cfg m).toNat ≤ s.cfg.MAX_POWER.toNat := by
  have hc := cfg_constraints s
  unfold startingCap
  split <;> omega

/-- R170: the filter width lies between its two configured bounds, so it is at least 1. -/
theorem zcWidth_pos (s : State) (interval : Time) : 1 ≤ (zcWidth s.cfg interval).toNat := by
  have hc := cfg_constraints s
  have := s.cfg.ZC_FILTER_MAX.isLt
  simp only [zcWidth, clamp, toByte_toNat]
  omega

/-- R190: one count of the signal-loss watchdog stays at or below its ceiling. -/
theorem countedTimeout_le {rc ceil : Byte} (h : rc.toNat ≤ ceil.toNat) :
    (if rc.toNat < ceil.toNat then rc + 1 else rc).toNat ≤ ceil.toNat := by
  split
  · rw [BitVec.toNat_add]
    exact (Nat.mod_le _ _).trans (by simpa using ‹_›)
  · exact h

/-! ## One comparator sample per poll (10_state.md R34) -/

theorem drawCmp_cons {e : EnvInputs} {b : Bool} {rest : List Bool} (h : e.cmpIn = b :: rest) :
    drawCmp e = (b, { e with cmpIn := rest }) := by
  simp [drawCmp, h]

theorem drawCmp_nil {e : EnvInputs} (h : e.cmpIn = []) :
    drawCmp e = (Config.freeCmp e.draws, { e with draws := e.draws + 1 }) := by
  simp [drawCmp, h]

@[simp] theorem demagPoll_env (s : State) : (demagPoll s).2.env = (drawCmp s.env).2 := by
  unfold demagPoll; dsimp only; split_ifs <;> rfl

@[simp] theorem edgePoll_env (s : State) : (edgePoll s).2.env = (drawCmp s.env).2 := by
  unfold edgePoll; dsimp only; split_ifs <;> rfl

/-- Settles O33: both polls leave the inputs that one draw of a sample leaves. -/
theorem pollTakesOneSample : Obligations.PollTakesOneSample := by
  intro s
  refine ⟨_, _, rfl, rfl, ?_, ?_, ?_⟩
  · simp
  · intro b rest hs
    simp [drawCmp_cons hs]
  · intro hs
    simp [drawCmp_nil hs]

/-! ## What a poll does to the confidence counter (R163) -/

@[simp] theorem edgePoll_width (s : State) : (edgePoll s).2.zc.width = s.zc.width := by
  unfold edgePoll; dsimp only; split_ifs <;> rfl

/-- R163: the counter saturates at the width. -/
theorem edgePoll_conf_le {s : State} (h : s.zc.conf.toNat ≤ s.zc.width.toNat) :
    (edgePoll s).2.zc.conf.toNat ≤ s.zc.width.toNat := by
  unfold edgePoll
  dsimp only
  split_ifs
  · exact h
  · exact (toByte_toNat_le _).trans (min_le_right _ _)
  · exact (toByte_toNat_le _).trans (by omega)
  · exact (toByte_toNat_le _).trans (by omega)

/-- R163: the counter reaches 0 only in the poll that confirms the crossing. -/
theorem edgePoll_conf_pos {s : State} (hpos : 1 ≤ s.zc.conf.toNat)
    (hle : s.zc.conf.toNat ≤ s.zc.width.toNat) (hpoll : (edgePoll s).1 ≠ .done) :
    1 ≤ (edgePoll s).2.zc.conf.toNat := by
  have := s.zc.width.isLt
  unfold edgePoll at hpoll ⊢
  dsimp only at hpoll ⊢
  split_ifs at hpoll ⊢ with _ _ hconf
  · exact hpos
  · simp only [toByte_toNat]
    omega
  · exact absurd rfl hpoll
  · exact Nat.one_le_iff_ne_zero.mpr fun h => hconf (BitVec.eq_of_toNat_eq h)

/-! ## The packed words of the observation map (10_state.md R39) -/

/-- A packed word of at most 24 bits shows the list's bits, and 0 above them. -/
theorem toTime_packBits_getLsbD {l : List Bool} (hl : l.length ≤ 24) (k : Nat) :
    (toTime (packBits l)).getLsbD k = l.getD k false := by
  simp only [toTime, BitVec.getLsbD_ofNat, packBits_testBit, Bool.and_eq_right_iff_imp,
    decide_eq_true_eq]
  intro hk
  by_contra hlt
  rw [List.getD_eq_default _ _ (by omega)] at hk
  exact Bool.false_ne_true hk

theorem phaseCode_le (p : Option Phase) : phaseCode p ≤ 3 := by
  rcases p with _ | _ | _ | _ <;> decide

theorem swCode_le (v : SwState) : swCode v ≤ 2 := by
  cases v <;> decide

/-- Address 0x04 as a number: the codes do not reach into each other's bits. -/
theorem phasesWord_toNat (c : CommState) : (phasesWord c).toNat =
    phaseCode c.pwmPhase + 4 * phaseCode c.fixedPhase + 16 * phaseCode c.sensePhase
      + (if c.preLevel then 64 else 0) := by
  have := phaseCode_le c.pwmPhase
  have := phaseCode_le c.fixedPhase
  have := phaseCode_le c.sensePhase
  rw [phasesWord, toTime_toNat]
  split <;> omega

/-- Address 0x05 as a number. -/
theorem swWord_toNat (w : Switches) :
    (swWord w).toNat = swCode w.a + 4 * swCode w.b + 16 * swCode w.c := by
  have := swCode_le w.a
  have := swCode_le w.b
  have := swCode_le w.c
  rw [swWord, toTime_toNat]
  omega

/-- The window's bit of FLAGS is set in the follow-up window. -/
theorem zcWindowBit_eq (w : ZcWindow) : zcWindowBit w = decide (w = .followup) := by
  cases w <;> rfl

theorem flagsWord_getLsbD (s : State) (k : Nat) : (flagsWord s).getLsbD k =
    [s.alarm.alarmPending, s.timing.fastPathEligible, s.duty.powerOnFlag, s.duty.fullPowerFlag,
      s.duty.dutyTracking, s.wave.pwmEnabled, s.wave.pwmSuppressed, s.wave.demagSkip,
      s.wave.wavePhase, s.wave.pwmOut, decide (s.zc.zcWindow = .followup), s.irq.cmpIrq,
      s.irq.ovfIrq, s.irq.pwmIrq, s.status.err].getD k false := by
  rw [flagsWord, toTime_packBits_getLsbD (by simp), zcWindowBit_eq]

theorem indWord_getLsbD (i : Indicators) (k : Nat) : (indWord i).getLsbD k =
    [i.faultInd, i.disarmedInd, i.failInd, i.senseEnabled].getD k false :=
  toTime_packBits_getLsbD (by simp) k

/-- Settles O16: each read writes its packed word to `res`, and the words' bits are those of R39. -/
theorem packedRegistersShowTheirBits : Obligations.PackedRegistersShowTheirBits := fun s =>
  ⟨_, _, _, _, rfl, rfl, rfl, rfl, rfl, rfl, rfl, rfl, flagsWord_getLsbD s, indWord_getLsbD s.ind,
    phasesWord_toNat s.comm, swWord_toNat s.sw⟩

/-! ## The power stage under the invariant (42_commutation.md R140, R147) -/

/-- R147: a switch that is on is the PWM phase's at its side, or the fixed phase's at its side. -/
theorem driven_of_switch_on {s : State} (h : SwitchesMatch s) {p : Phase} {v : SwState}
    (hp : s.sw.get p = v) (hv : v ≠ .off) :
    (s.comm.pwmPhase = some p ∧ v = sideP s.cfg) ∨
      (s.comm.fixedPhase = some p ∧ v = sideF s.cfg) := by
  subst hp
  exact (h p).resolve_left hv

/-- R147: two phases that hold the same switch on are the same phase, since the PWM phase and the
fixed phase are driven at opposite sides. -/
theorem phase_eq_of_switch_eq {s : State} (h : SwitchesMatch s) {v : SwState} (hv : v ≠ .off)
    {p q : Phase} (hp : s.sw.get p = v) (hq : s.sw.get q = v) : p = q := by
  have hsides := (sides_ne s.cfg).1
  obtain ⟨hp, hvp⟩ | ⟨hp, hvp⟩ := driven_of_switch_on h hp hv <;>
    obtain ⟨hq, hvq⟩ | ⟨hq, hvq⟩ := driven_of_switch_on h hq hv
  · exact Option.some.inj (hp.symm.trans hq)
  · exact absurd (hvp.symm.trans hvq) hsides
  · exact absurd (hvq.symm.trans hvp) hsides
  · exact Option.some.inj (hp.symm.trans hq)

/-- R147: a phase that is neither the PWM phase nor the fixed phase is off. -/
theorem switch_off_of_undriven {s : State} (h : SwitchesMatch s) {p : Phase}
    (hp : s.comm.pwmPhase ≠ some p) (hf : s.comm.fixedPhase ≠ some p) : s.sw.get p = .off := by
  obtain h | ⟨h, _⟩ | ⟨h, _⟩ := h p
  · exact h
  · exact absurd h hp
  · exact absurd h hf

/-- R42(2): in a step the three phases are those of the step. -/
theorem phasesMatch_step {s : State} {n : CommStep} (h : PhasesMatch s) (hn : s.comm.csm = .step n) :
    s.comm.pwmPhase = some (pwmPhaseOf s.cfg n) ∧
      s.comm.fixedPhase = some (fixedPhaseOf s.cfg n) ∧ s.comm.sensePhase = some (floatPhase n) := by
  simpa only [PhasesMatch, hn] using h

/-- R42(1): in ALLOFF, and only there, the three phases are NONE. -/
theorem phasesMatch_allOff_iff {s : State} (h : PhasesMatch s) : s.comm.csm = .allOff ↔
    s.comm.pwmPhase = none ∧ s.comm.fixedPhase = none ∧ s.comm.sensePhase = none := by
  cases hcsm : s.comm.csm with
  | allOff => simpa only [PhasesMatch, hcsm, true_iff] using h
  | step n => simp [phasesMatch_step h hcsm]

/-- R42(3): nothing drives the sensed phase. -/
theorem sense_switch_off {s : State} (h : Inv s) {p : Phase} (hp : s.comm.sensePhase = some p) :
    s.sw.get p = .off := by
  cases hcsm : s.comm.csm with
  | allOff =>
    obtain ⟨_, _, hsense⟩ := (phasesMatch_allOff_iff h.phases).mp hcsm
    rw [hsense] at hp
    cases hp
  | step n =>
    obtain ⟨hpwm, hfixed, hsense⟩ := phasesMatch_step h.phases hcsm
    obtain ⟨_, hpwm_ne, hfixed_ne⟩ := step_phases_ne s.cfg n
    obtain rfl : floatPhase n = p := Option.some.inj (hsense.symm.trans hp)
    exact switch_off_of_undriven h.switches (by simpa [hpwm] using hpwm_ne)
      (by simpa [hfixed] using hfixed_ne)

/-- The model's three phases of a step are those the spec's table prints (R140). -/
theorem specTable140_phases : ∀ r ∈ specTable140,
    highPhase r.state = r.hi ∧ lowPhase r.state = r.lo ∧ floatPhase r.state = r.float := by
  decide

/-- R42(2), R144: the phases of a step are those of its row of the table. -/
theorem phasesOfRow_of_phasesMatch {s : State} (h : PhasesMatch s) {r : SpecRow140}
    (hr : r ∈ specTable140) (hcsm : s.comm.csm = .step r.state) : phasesOfRow s.cfg r s.comm := by
  obtain ⟨hpwm, hfixed, hsense⟩ := phasesMatch_step h hcsm
  obtain ⟨hhi, hlo, hfloat⟩ := specTable140_phases r hr
  refine ⟨hcsm, hsense.trans (congrArg some hfloat), ?_, ?_⟩
  · rw [hpwm, pwmPhaseOf, hhi, hlo]
    cases s.cfg.PWM_SIDE <;> rfl
  · rw [hfixed, fixedPhaseOf, hhi, hlo]
    cases s.cfg.PWM_SIDE <;> rfl

/-- Settles O27, from the two stage clauses of the invariant. -/
theorem invariantMeansSafe : Obligations.InvariantMeansSafe := fun _ h =>
  ⟨⟨⟨fun _ _ => phase_eq_of_switch_eq h.switches (by decide),
        fun _ _ => phase_eq_of_switch_eq h.switches (by decide)⟩,
      fun _ => sense_switch_off h⟩,
    phasesMatch_allOff_iff h.phases,
    fun _ hr => phasesOfRow_of_phasesMatch h.phases hr,
    fun _ => switch_off_of_undriven h.switches⟩

/-! ## The invariants at reset (70_reset_and_hazards.md R280) -/

theorem inv_resetWith (c : ValidConfig) (tau : Nat) (env : EnvInputs) :
    Inv (State.resetWith c tau env) where
  phases := ⟨rfl, rfl, rfl⟩
  switches p := .inl (Switches.get_allOff p)
  conf := le_rfl
  rcTimeout := Nat.zero_le _
  commanded := Nat.zero_le _
  limit := le_rfl
  ceiling := Nat.zero_le _

/-- The detector's bounds say nothing outside the three sequencer states they name. -/
theorem DetectorInv.of_pc {s : State}
    (hpc : s.seq.pc ≠ .demagWait ∧ s.seq.pc ≠ .edgeFilter ∧ s.seq.pc ≠ .stallDelay) :
    DetectorInv s := by
  obtain ⟨hdemag, hedge, hstall⟩ := hpc
  exact ⟨fun h => (h.elim hdemag hedge).elim, fun h => (h.elim hdemag hedge).elim,
    fun h => (hstall h).elim⟩

theorem detectorInv_resetWith (c : ValidConfig) (tau : Nat) (env : EnvInputs) :
    DetectorInv (State.resetWith c tau env) :=
  .of_pc (by simp [State.resetWith])

/-- Settles O8: power-on and RESET both end in a `resetWith` state. -/
theorem invariantHoldsAtReset : Obligations.InvariantHoldsAtReset :=
  ⟨inv_resetWith _ _ _, detectorInv_resetWith _ _ _,
    fun _ => ⟨_, rfl, inv_resetWith _ _ _, detectorInv_resetWith _ _ _⟩⟩

/-! ## Every shared operation keeps the invariant -/

/-- The invariant reads only these elements: an operation that leaves them alone keeps it. -/
theorem Inv.of_same {s t : State} (h : Inv s)
    (config : t.config = s.config := by simp) (comm : t.comm = s.comm := by simp)
    (sw : t.sw = s.sw := by simp) (conf : t.zc.conf = s.zc.conf := by simp)
    (width : t.zc.width = s.zc.width := by simp)
    (rcTimeout : t.duty.rcTimeout = s.duty.rcTimeout := by simp)
    (commanded : t.duty.commandedDuty = s.duty.commandedDuty := by simp)
    (ceiling : t.duty.rateLimitedDuty = s.duty.rateLimitedDuty := by simp)
    (limit : t.timing.timingDutyLimit = s.timing.timingDutyLimit := by simp) : Inv t where
  phases := by simpa only [PhasesMatch, State.cfg, config, comm] using h.phases
  switches := by simpa only [SwitchesMatch, State.cfg, config, comm, sw] using h.switches
  conf := by simpa only [conf, width] using h.conf
  rcTimeout := by simpa only [State.cfg, config, rcTimeout] using h.rcTimeout
  commanded := by simpa only [State.cfg, config, commanded] using h.commanded
  limit := by simpa only [State.cfg, config, limit] using h.limit
  ceiling := by simpa only [State.cfg, config, ceiling] using h.ceiling

section KeepsInv
variable {s : State}

theorem inv_raise (e : Event) (h : Inv s) : Inv (raise e s) := { h with }

/-- R31: the PWM phase may be switched off or to its own side. -/
theorem inv_drivePwmPhase {v : SwState} (h : Inv s) (hv : v = .off ∨ v = sideP s.cfg) :
    Inv (drivePwmPhase v s) :=
  { h with
    switches := by
      intro p
      simp only [drivePwmPhase, Switches.get_setOpt]
      by_cases hp : s.comm.pwmPhase = some p
      · simp only [hp, if_true]
        exact hv.imp_right fun hv => .inl ⟨trivial, hv⟩
      · simpa only [hp, if_false] using h.switches p }

theorem waveDrive_cases (s : State) : waveDrive s = .off ∨ waveDrive s = sideP s.cfg := by
  unfold waveDrive
  split
  · exact .inr rfl
  · exact .inl rfl

theorem inv_pwmHandler (h : Inv s) : Inv (pwmHandler s) := by
  unfold pwmHandler
  split
  · exact inv_drivePwmPhase h.of_same (waveDrive_cases _)
  · exact h

theorem inv_takeIrq (h : Inv s) : Inv (takeIrq s).2 := by
  unfold takeIrq
  split_ifs
  · exact inv_pwmHandler h.of_same
  · exact h.of_same
  · exact h.of_same
  · exact h

theorem inv_recordEdge (T : Time) (h : Inv s) : Inv (recordEdge T s) := by
  have hhalf : (s.duty.rateLimitedDuty >>> 1).toNat ≤ s.cfg.MAX_POWER.toNat := by
    rw [BitVec.toNat_ushiftRight]
    exact (Nat.shiftRight_le _ _).trans h.ceiling
  unfold recordEdge
  dsimp only
  split
  · exact { h with ceiling := hhalf }
  · exact { h with }

theorem inv_computeTimingDutyLimit (h : Inv s) : Inv (computeTimingDutyLimit s) :=
  { h with limit := timingDutyLimitOf_le _ _ }

/-- R146: a commutation opens every switch it does not drive anew, so what the old phases were does
not matter. -/
theorem inv_commutate (h : Inv s) : Inv (commutate s) where
  phases := by
    simp only [PhasesMatch, commutate_comm]
    exact ⟨by simp, by simp, trivial⟩
  switches := by
    intro q
    simp only [commutate_comm, commutate_sw, Switches.get_set, get_floatOld]
    split_ifs
    · next hfixed _ => exact .inr (.inr ⟨congrArg some hfixed.symm, by simp⟩)
    · exact .inl rfl
    · exact .inl rfl
    · next hpwm _ => exact .inr (.inl ⟨congrArg some hpwm.symm, by simp⟩)
    · exact .inl rfl
    · exact .inl rfl
    · next hfixed hfixedOld hpwm hpwmOld =>
      exact .inl (switch_off_of_undriven h.switches (fun hold => hpwmOld ⟨hold, hpwm⟩)
        (fun hold => hfixedOld ⟨hold, hfixed⟩))
  conf := by simpa using h.conf
  rcTimeout := by simpa using h.rcTimeout
  commanded := by simpa using h.commanded
  limit := by simpa using h.limit
  ceiling := by simpa using h.ceiling

theorem inv_allOff (h : Inv s) : Inv (allOff s) :=
  { h with phases := ⟨rfl, rfl, rfl⟩, switches := fun p => .inl (Switches.get_allOff p) }

theorem inv_writePlan (p : DutyPlan) (h : Inv s) : Inv (writePlan p s) := by
  unfold writePlan
  cases p.mode with
  | off => exact inv_drivePwmPhase h.of_same (.inl rfl)
  | full =>
    dsimp only
    split
    · exact inv_drivePwmPhase h.of_same (.inr rfl)
    · exact h.of_same
  | normal => exact h.of_same
  | long => exact h.of_same

theorem inv_recomputeDuty (h : Inv s) : Inv (recomputeDuty s) :=
  inv_writePlan _ { h with ceiling := (cappedCeiling_le _ _).trans h.ceiling }

theorem inv_countSignalLoss (h : Inv s) : Inv (countSignalLoss s) := by
  have hcount := countedTimeout_le h.rcTimeout
  unfold countSignalLoss
  extract_lets rc d s₁
  have hs₁ : Inv s₁ := { h with rcTimeout := hcount }
  split
  · exact inv_raise _ hs₁
  · exact hs₁

theorem inv_acceptThrottle (v : Word16) (h : Inv s) : Inv (acceptThrottle v s) :=
  inv_recomputeDuty { h with
    rcTimeout := Nat.zero_le _
    commanded := (toWord16_toNat_le _).trans (min_le_right _ _) }

theorem inv_setThrottleCommand (v : Word16) (h : Inv s) : Inv (setThrottleCommand v s) := by
  unfold setThrottleCommand
  split
  · exact inv_acceptThrottle v h
  · exact inv_countSignalLoss h

/-! ### The zero-cross engine -/

theorem inv_zcArm (h : Inv s) : Inv (zcArm s) := { h with conf := le_rfl }

theorem inv_demagPoll (h : Inv s) : Inv (demagPoll s).2 := h.of_same

theorem inv_edgePoll (h : Inv s) : Inv (edgePoll s).2 where
  phases := by simpa [PhasesMatch] using h.phases
  switches := by simpa [SwitchesMatch] using h.switches
  conf := by simpa using edgePoll_conf_le h.conf
  rcTimeout := by simpa using h.rcTimeout
  commanded := by simpa using h.commanded
  limit := by simpa using h.limit
  ceiling := by simpa using h.ceiling

theorem inv_feedback (T : Time) (h : Inv s) : Inv (feedback T s) :=
  inv_recomputeDuty (inv_computeTimingDutyLimit (inv_recordEdge T h))

theorem inv_confirm (h : Inv s) : Inv (confirm s) := { inv_feedback (now s) h with }

theorem inv_demagTimeout (h : Inv s) : Inv (demagTimeout s) :=
  inv_raise _ (inv_drivePwmPhase h.of_same (.inl rfl))

theorem inv_zcTimeout (h : Inv s) : Inv (zcTimeout s).2 := by
  unfold zcTimeout
  split
  · exact { h with conf := le_rfl }
  · exact { h with }

/-! ### The supervisor -/

/-- Each ramp sets the ceiling, recomputes the duty and moves the sequencer. -/
theorem inv_recomputeDuty_seq (q : SeqState) (h : Inv s) : Inv { recomputeDuty s with seq := q } :=
  { inv_recomputeDuty h with }

theorem inv_startFromRunning (h : Inv s) : Inv (startFromRunning s) := by
  obtain ⟨_, _, _, _, _, hmin, _⟩ := cfg_constraints s
  exact inv_recomputeDuty_seq _ { h with ceiling := hmin }

theorem inv_disarm (h : Inv s) : Inv (disarm s) :=
  { inv_allOff h with commanded := Nat.zero_le _ }

theorem inv_restartControl (h : Inv s) : Inv (restartControl s) :=
  inv_startFromRunning (inv_disarm h)

theorem inv_startFailed (h : Inv s) : Inv (startFailed s) := { inv_allOff h with }

theorem inv_enterStall (h : Inv s) : Inv (enterStall s) := h.of_same

theorem inv_runningRamp (h : Inv s) : Inv (runningRamp s) :=
  inv_recomputeDuty_seq _ { h with ceiling := (toWord16_toNat_le _).trans (min_le_right _ _) }

theorem inv_startingRamp (h : Inv s) : Inv (startingRamp s) :=
  inv_recomputeDuty_seq _ { h with
    ceiling := (toWord16_toNat_le _).trans ((min_le_right _ _).trans (startingCap_le s _)) }

theorem inv_startingBranch (h : Inv s) : Inv (startingBranch s) := by
  have hcount : Inv (countStart s) := h.of_same
  unfold startingBranch
  dsimp only
  split
  · exact inv_startFailed hcount
  · exact inv_startingRamp hcount

theorem inv_supervisorEvaluate (h : Inv s) : Inv (supervisorEvaluate s) := by
  unfold supervisorEvaluate
  split_ifs
  · exact inv_enterStall h
  · exact inv_runningRamp h
  · exact inv_startFromRunning h.of_same
  · exact inv_startingBranch h

/-! ### The foreground sequencer -/

theorem inv_stepDone (h : Inv s) : Inv (stepDone s) := h.of_same

theorem inv_stepCommutate (h : Inv s) : Inv (stepCommutate s) := by
  have hcomm := inv_commutate h
  unfold stepCommutate
  dsimp only
  split
  · exact hcomm.of_same
  · exact (inv_zcArm hcomm).of_same

theorem inv_stepDemagWait (h : Inv s) : Inv (stepDemagWait s) := by
  have hpoll := inv_demagPoll h
  unfold stepDemagWait
  dsimp only
  cases (demagPoll s).1 with
  | wait => exact hpoll
  | done => exact hpoll.of_same
  | timeout => exact inv_stepDone (inv_feedback _ (inv_demagTimeout hpoll))

theorem inv_stepEdgeTimeout (h : Inv s) : Inv (stepEdgeTimeout s) := by
  have htimeout := inv_zcTimeout h
  unfold stepEdgeTimeout
  dsimp only
  cases (zcTimeout s).1 with
  | followup => exact htimeout
  | final => exact inv_stepDone (inv_feedback _ htimeout)

theorem inv_stepEdgeFilter (h : Inv s) : Inv (stepEdgeFilter s) := by
  have hpoll := inv_edgePoll h
  unfold stepEdgeFilter
  dsimp only
  cases (edgePoll s).1 with
  | wait => exact hpoll
  | done => exact (inv_confirm hpoll).of_same
  | timeout => exact inv_stepEdgeTimeout hpoll

theorem inv_stepStallDelay (h : Inv s) : Inv (stepStallDelay s) := by
  unfold stepStallDelay
  dsimp only
  split
  · exact inv_restartControl h.of_same
  · exact h.of_same

theorem inv_sequencerStep (h : Inv s) : Inv (sequencerStep s) := by
  unfold sequencerStep
  cases s.seq.pc with
  | idle => exact inv_restartControl h
  | commutate => exact inv_stepCommutate h
  | skipWait => exact inv_stepDone (inv_feedback _ h)
  | demagWait => exact inv_stepDemagWait h
  | edgeFilter => exact inv_stepEdgeFilter h
  | commWait => exact inv_stepDone h
  | evaluate => exact inv_supervisorEvaluate h
  | stallDelay => exact inv_stepStallDelay h
  | failed => exact { h with }

theorem inv_microStep (h : Inv s) : Inv (microStep s) := by
  cases hheld : stepHeld s with
  | true => rw [microStep_held s hheld]; exact h.of_same
  | false => rw [microStep_performed s hheld]; exact (inv_sequencerStep h).of_same

/-! ### Every operation and every step -/

theorem inv_execWaital (h : Inv s) : ∃ t, exec .waital s = .next t ∧ Inv t := by
  refine ⟨_, rfl, ?_⟩
  split
  · exact h.of_same
  · exact h

theorem inv_execPredict (b : Byte) (h : Inv s) : ∃ t, exec (.predict b) s = .next t ∧ Inv t := by
  refine ⟨_, rfl, ?_⟩
  split
  · exact h.of_same
  · exact h.of_same

/-- Every operation answers a next state, and one that meets the invariant. -/
theorem inv_exec (h : Inv s) : ∀ i : Instr, ∃ t, exec i s = .next t ∧ Inv t
  | .armabs _ => ⟨_, rfl, h.of_same⟩
  | .armrel _ => ⟨_, rfl, h.of_same⟩
  | .waital => inv_execWaital h
  | .now => ⟨_, rfl, h.of_same⟩
  | .recedge T => ⟨_, rfl, inv_recordEdge T h⟩
  | .predict b => inv_execPredict b h
  | .deg2t _ _ _ => ⟨_, rfl, h.of_same⟩
  | .tlimit => ⟨_, rfl, inv_computeTimingDutyLimit h⟩
  | .commut => ⟨_, rfl, inv_commutate h⟩
  | .alloff => ⟨_, rfl, inv_allOff h⟩
  | .zcarm => ⟨_, rfl, inv_zcArm h⟩
  | .demagp => ⟨_, rfl, (inv_demagPoll h).of_same⟩
  | .edgep => ⟨_, rfl, (inv_edgePoll h).of_same⟩
  | .confirm => ⟨_, rfl, inv_confirm h⟩
  | .demagto => ⟨_, rfl, inv_demagTimeout h⟩
  | .zcto => ⟨_, rfl, (inv_zcTimeout h).of_same⟩
  | .skiparm => ⟨_, rfl, h.of_same⟩
  | .feedbk => ⟨_, rfl, inv_feedback _ h⟩
  | .setthr v => ⟨_, rfl, inv_setThrottleCommand v h⟩
  | .recomp => ⟨_, rfl, inv_recomputeDuty h⟩
  | .restart => ⟨_, rfl, inv_restartControl h⟩
  | .startfr => ⟨_, rfl, inv_startFromRunning h⟩
  | .eval => ⟨_, rfl, inv_supervisorEvaluate h⟩
  | .failed => ⟨_, rfl, inv_startFailed h⟩
  | .step => ⟨_, rfl, inv_microStep h⟩
  | .rdreg _ => ⟨_, rfl, h.of_same⟩
  | .tick _ => ⟨_, rfl, h.of_same⟩
  | .pwmovf => ⟨_, rfl, h.of_same⟩
  | .takeirq => ⟨_, rfl, (inv_takeIrq h).of_same⟩
  | .reset => ⟨_, rfl, inv_resetWith _ _ _⟩

/-- Every step answers a next state, and one that meets the invariant: with no word presented
nothing changes, a refused word writes only the status, and every other word runs its operation. -/
theorem inv_step (h : Inv s) : ∃ t, step s = .next t ∧ Inv t := by
  cases hport : s.env.port with
  | nil => exact ⟨s, by simp [step, hport], h⟩
  | cons w rest =>
    have htaken : Inv { s with env.port := rest } := h.of_same
    cases hd : decode w with
    | error r => exact ⟨_, by rw [step, nextWord_error hport hd], htaken.of_same⟩
    | ok i => simpa only [step, nextWord_ok hport hd] using inv_exec htaken i

end KeepsInv

/-- Settles O28: `step` is a function, so its answer is the one `inv_step` speaks of. -/
theorem everyStepKeepsTheInvariant : Obligations.EveryStepKeepsTheInvariant := by
  intro s s' h hstep
  obtain ⟨t, ht, hinv⟩ := inv_step h
  obtain rfl : t = s' := by simpa using ht.symm.trans hstep
  exact hinv

/-! ## Every operation but EDGEP keeps the detector's bounds (10_state.md R42(5)) -/

/-- The detector's bounds read only these elements. -/
theorem DetectorInv.of_same {s t : State} (h : DetectorInv s)
    (pc : t.seq.pc = s.seq.pc := by simp) (conf : t.zc.conf = s.zc.conf := by simp)
    (width : t.zc.width = s.zc.width := by simp)
    (stall : t.start.stallCount = s.start.stallCount := by simp) : DetectorInv t where
  confLe := by simpa only [pc, conf, width] using h.confLe
  confPos := by simpa only [pc, conf] using h.confPos
  stall := by simpa only [pc, stall] using h.stall

@[simp] theorem commutate_stallCount (s : State) :
    (commutate s).start.stallCount = s.start.stallCount := by
  rw [commutate_frame]

@[simp] theorem demagTimeout_stallCount (s : State) :
    (demagTimeout s).start.stallCount = s.start.stallCount := rfl

@[simp] theorem skipArm_stallCount (s : State) :
    (skipArm s).start.stallCount = s.start.stallCount := rfl

section KeepsDetectorInv
variable {s : State}

/-- R160: arming sets the counter and the width to the same value, which is at least 1. -/
theorem detectorInv_zcArm (h : DetectorInv s) : DetectorInv (zcArm s) where
  confLe _ := le_rfl
  confPos _ := zcWidth_pos s _
  stall := by simpa using h.stall

/-- R163: a poll that does not confirm keeps the bounds. -/
theorem detectorInv_edgePoll (h : DetectorInv s) (hpoll : (edgePoll s).1 ≠ .done) :
    DetectorInv (edgePoll s).2 where
  confLe hpc := by
    rw [edgePoll_seq] at hpc
    simpa using edgePoll_conf_le (h.confLe hpc)
  confPos hpc := by
    rw [edgePoll_seq] at hpc
    exact edgePoll_conf_pos (h.confPos hpc) (h.confLe hpc) hpoll
  stall := by simpa using h.stall

/-- R166: the follow-up window clips the width to the counter; the final timeout keeps both. -/
theorem detectorInv_zcTimeout (h : DetectorInv s) : DetectorInv (zcTimeout s).2 := by
  unfold zcTimeout
  split
  · exact { h with confLe := fun _ => le_rfl }
  · exact { h with }

theorem detectorInv_startFromRunning (s : State) : DetectorInv (startFromRunning s) :=
  .of_pc (by simp [startFromRunning])

theorem detectorInv_restartControl (s : State) : DetectorInv (restartControl s) :=
  detectorInv_startFromRunning _

theorem detectorInv_startFailed (s : State) : DetectorInv (startFailed s) :=
  .of_pc (by simp [startFailed])

/-- R225(1): the stall delay begins with at least one alarm left. -/
theorem detectorInv_enterStall (s : State) : DetectorInv (enterStall s) where
  confLe h := by simp [enterStall] at h
  confPos h := by simp [enterStall] at h
  stall _ := by
    have hc := cfg_constraints s
    simp only [enterStall, raise, armRelative_start]
    omega

theorem detectorInv_startingBranch (s : State) : DetectorInv (startingBranch s) := by
  unfold startingBranch
  dsimp only
  split
  · exact detectorInv_startFailed _
  · exact .of_pc (by simp [startingRamp])

/-- R225: every branch of the evaluation leaves the detector's states or enters the stall delay. -/
theorem detectorInv_supervisorEvaluate (s : State) : DetectorInv (supervisorEvaluate s) := by
  unfold supervisorEvaluate
  split_ifs
  · exact detectorInv_enterStall s
  · exact .of_pc (by simp [runningRamp])
  · exact detectorInv_startFromRunning _
  · exact detectorInv_startingBranch s

theorem detectorInv_stepDone (s : State) : DetectorInv (stepDone s) := by
  unfold stepDone
  split
  · exact .of_pc (by simp)
  · exact .of_pc (by simp)

/-- R221 COMMUTATE: the demagnetization wait is entered with the detector just armed. -/
theorem detectorInv_stepCommutate (s : State) : DetectorInv (stepCommutate s) := by
  unfold stepCommutate
  dsimp only
  split
  · exact .of_pc (by simp)
  · exact ⟨fun _ => le_rfl, fun _ => zcWidth_pos _ _, fun h => by simp at h⟩

/-- R221 DEMAG_WAIT: EDGE_FILTER is entered with the counter as the wait held it. -/
theorem detectorInv_stepDemagWait (h : DetectorInv s) (hpc : s.seq.pc = .demagWait) :
    DetectorInv (stepDemagWait s) := by
  unfold stepDemagWait
  dsimp only
  cases (demagPoll s).1 with
  | wait => exact h.of_same
  | done =>
    exact ⟨fun _ => by simpa using h.confLe (.inl hpc), fun _ => by simpa using h.confPos (.inl hpc),
      fun hstall => by simp at hstall⟩
  | timeout => exact detectorInv_stepDone _

theorem detectorInv_stepEdgeTimeout (h : DetectorInv s) : DetectorInv (stepEdgeTimeout s) := by
  unfold stepEdgeTimeout
  dsimp only
  cases (zcTimeout s).1 with
  | followup => exact detectorInv_zcTimeout h
  | final => exact detectorInv_stepDone _

/-- R221 EDGE_FILTER: a confirmed crossing leaves EDGE_FILTER. -/
theorem detectorInv_stepEdgeFilter (h : DetectorInv s) : DetectorInv (stepEdgeFilter s) := by
  have hkeep := detectorInv_edgePoll h
  unfold stepEdgeFilter
  dsimp only
  cases hpoll : (edgePoll s).1 with
  | wait => exact hkeep (by simp [hpoll])
  | done => exact .of_pc (by simp)
  | timeout => exact detectorInv_stepEdgeTimeout (hkeep (by simp [hpoll]))

/-- R221 STALL_DELAY: the sequencer stays only while the count is not 0. -/
theorem detectorInv_stepStallDelay (hpc : s.seq.pc = .stallDelay) :
    DetectorInv (stepStallDelay s) := by
  unfold stepStallDelay
  dsimp only
  split
  · exact detectorInv_restartControl _
  · next hcount =>
    exact ⟨fun h => by simp [hpc] at h, fun h => by simp [hpc] at h,
      fun _ => Nat.one_le_iff_ne_zero.mpr fun h => hcount (BitVec.eq_of_toNat_eq h)⟩

theorem detectorInv_sequencerStep (h : DetectorInv s) : DetectorInv (sequencerStep s) := by
  unfold sequencerStep
  cases hpc : s.seq.pc with
  | idle => exact detectorInv_restartControl s
  | commutate => exact detectorInv_stepCommutate s
  | skipWait => exact detectorInv_stepDone _
  | demagWait => exact detectorInv_stepDemagWait h hpc
  | edgeFilter => exact detectorInv_stepEdgeFilter h
  | commWait => exact detectorInv_stepDone s
  | evaluate => exact detectorInv_supervisorEvaluate s
  | stallDelay => exact detectorInv_stepStallDelay hpc
  | failed => exact { h with }

theorem detectorInv_microStep (h : DetectorInv s) : DetectorInv (microStep s) := by
  cases hheld : stepHeld s with
  | true => rw [microStep_held s hheld]; exact h.of_same
  | false => rw [microStep_performed s hheld]; exact (detectorInv_sequencerStep h).of_same

theorem detectorInv_execWaital (h : DetectorInv s) :
    ∃ t, exec .waital s = .next t ∧ DetectorInv t := by
  refine ⟨_, rfl, ?_⟩
  split
  · exact h.of_same
  · exact h

theorem detectorInv_execPredict (b : Byte) (h : DetectorInv s) :
    ∃ t, exec (.predict b) s = .next t ∧ DetectorInv t := by
  refine ⟨_, rfl, ?_⟩
  split
  · exact h.of_same
  · exact h.of_same

/-- Every operation but EDGEP answers a state that keeps the detector's bounds. -/
theorem detectorInv_exec (h : DetectorInv s) :
    ∀ i : Instr, i ≠ .edgep → ∃ t, exec i s = .next t ∧ DetectorInv t
  | .armabs _, _ => ⟨_, rfl, h.of_same⟩
  | .armrel _, _ => ⟨_, rfl, h.of_same⟩
  | .waital, _ => detectorInv_execWaital h
  | .now, _ => ⟨_, rfl, h.of_same⟩
  | .recedge _, _ => ⟨_, rfl, h.of_same⟩
  | .predict b, _ => detectorInv_execPredict b h
  | .deg2t _ _ _, _ => ⟨_, rfl, h.of_same⟩
  | .tlimit, _ => ⟨_, rfl, h.of_same⟩
  | .commut, _ => ⟨_, rfl, h.of_same⟩
  | .alloff, _ => ⟨_, rfl, h.of_same⟩
  | .zcarm, _ => ⟨_, rfl, detectorInv_zcArm h⟩
  | .demagp, _ => ⟨_, rfl, h.of_same⟩
  | .edgep, hne => absurd rfl hne
  | .confirm, _ => ⟨_, rfl, h.of_same⟩
  | .demagto, _ => ⟨_, rfl, h.of_same⟩
  | .zcto, _ => ⟨_, rfl, (detectorInv_zcTimeout h).of_same⟩
  | .skiparm, _ => ⟨_, rfl, h.of_same⟩
  | .feedbk, _ => ⟨_, rfl, h.of_same⟩
  | .setthr _, _ => ⟨_, rfl, h.of_same⟩
  | .recomp, _ => ⟨_, rfl, h.of_same⟩
  | .restart, _ => ⟨_, rfl, detectorInv_restartControl s⟩
  | .startfr, _ => ⟨_, rfl, detectorInv_startFromRunning s⟩
  | .eval, _ => ⟨_, rfl, detectorInv_supervisorEvaluate s⟩
  | .failed, _ => ⟨_, rfl, detectorInv_startFailed s⟩
  | .step, _ => ⟨_, rfl, detectorInv_microStep h⟩
  | .rdreg _, _ => ⟨_, rfl, h.of_same⟩
  | .tick _, _ => ⟨_, rfl, h.of_same⟩
  | .pwmovf, _ => ⟨_, rfl, h.of_same⟩
  | .takeirq, _ => ⟨_, rfl, h.of_same⟩
  | .reset, _ => ⟨_, rfl, detectorInv_resetWith _ _ _⟩

end KeepsDetectorInv

/-- Settles O30: `exec` is a function, so its answer is the one `detectorInv_exec` speaks of. -/
theorem detectorBoundsAreKept : Obligations.DetectorBoundsAreKept := by
  intro s t i h hne hexec
  obtain ⟨u, hu, hinv⟩ := detectorInv_exec h i hne
  obtain rfl : u = t := by simpa using hu.symm.trans hexec
  exact hinv

end Sys2Proof.Machine

/-! # Proofs of the family 30_encoding.md -/

namespace Sys2Proof

/-! ## The fields a word leaves zero (30_encoding.md R88(2)) -/

/-- R88(2): no reserved bit is set when every field fits the bits its operation takes. -/
theorem hasReservedBits_eq_false_iff {r : OpRow} {w : CmdWord} : hasReservedBits r w = false ↔
    (xField w).toNat < 2 ^ r.xBits ∧ (yField w).toNat < 2 ^ r.yBits ∧
      (bField w).toNat < 2 ^ r.bBits := by
  simp [hasReservedBits, and_assoc]

/-- A field that does not fit the bits its operation takes is a reserved one. -/
theorem hasReservedBits_eq_true_iff {r : OpRow} {w : CmdWord} : hasReservedBits r w = true ↔
    2 ^ r.xBits ≤ (xField w).toNat ∨ 2 ^ r.yBits ≤ (yField w).toNat ∨
      2 ^ r.bBits ≤ (bField w).toNat := by
  simp [hasReservedBits, or_assoc]

/-- A field of which an operation takes no bit fits only when it is zero. -/
theorem toNat_lt_two_pow_zero_iff {n : Nat} {v : BitVec n} : v.toNat < 2 ^ 0 ↔ v = 0 := by
  rw [pow_zero, Nat.lt_one_iff, BitVec.toNat_eq, BitVec.ofNat_eq_ofNat, BitVec.toNat_ofNat,
    Nat.zero_mod]

theorem two_pow_le_toNat_of_ne_zero {n k : Nat} {v : BitVec n} (hk : k = 0) (hv : v ≠ 0) :
    2 ^ k ≤ v.toNat :=
  not_lt.mp fun hlt => hv (toNat_lt_two_pow_zero_iff.mp (hk ▸ hlt))

/-- R77: a 24-bit field whose bits above the low 16 are zero is its low 16 bits. -/
theorem setWidth_setWidth_of_toNat_lt {x : Time} (h : x.toNat < 2 ^ 16) :
    (x.setWidth 16).setWidth 24 = x := by
  apply BitVec.eq_of_toNat_eq
  rw [BitVec.toNat_setWidth, BitVec.toNat_setWidth, Nat.mod_eq_of_lt h, Nat.mod_eq_of_lt x.isLt]

/-! ## The decoder by its outcomes (R88) -/

/-- R88(1): a code of no operation is refused first. -/
theorem decode_illegalOpcode {w : CmdWord} (h : ∀ o, (opRow o).code ≠ opcField w) :
    decode w = .error .illegalOpcode := by
  cases hop : opOfCode (opcField w) with
  | none => simp [decode, hop]
  | some o => exact absurd (code_of_opOfCode hop) (h o)

/-- R88(2): a reserved bit is refused before any operand is read. -/
theorem decode_reservedField {w : CmdWord} {o : Op} (hcode : (opRow o).code = opcField w)
    (hres : hasReservedBits (opRow o) w = true) : decode w = .error .reservedField := by
  simp [decode, ← hcode, hres]

/-- A word with an operation's code and no reserved bit is assembled. -/
theorem decode_assemble {w : CmdWord} {o : Op} (hcode : (opRow o).code = opcField w)
    (hres : hasReservedBits (opRow o) w = false) : decode w = assemble o w := by
  simp [decode, ← hcode, hres]

/-- A word with X and Y zero and the code of an operation that takes all of B is assembled. -/
theorem decode_assemble_of_byteOperand {w : CmdWord} {o : Op}
    (hcode : (opRow o).code = opcField w) (hbits : (opRow o).bBits = 8)
    (hx : xField w = 0) (hy : yField w = 0) : decode w = assemble o w := by
  refine decode_assemble hcode (hasReservedBits_eq_false_iff.mpr ⟨?_, ?_, ?_⟩)
  · simp [hx]
  · simp [hy]
  · rw [hbits]; exact (bField w).isLt

/-- R88(4): no element of the map stands at the address. -/
theorem regOfAddr_eq_none {a : Byte} (h : ∀ r : Reg, r.addr ≠ a) : regOfAddr a = none := by
  cases hreg : regOfAddr a with
  | none => rfl
  | some r => exact absurd (addr_of_regOfAddr hreg) (h r)

/-- What a word that decodes has passed: it bears an operation's code, no reserved bit, and its
operands are accepted. -/
theorem decode_eq_ok {w : CmdWord} {i : Instr} (h : decode w = .ok i) :
    ∃ o, (opRow o).code = opcField w ∧ hasReservedBits (opRow o) w = false ∧
      assemble o w = .ok i := by
  cases hop : opOfCode (opcField w) with
  | none => simp [decode, hop] at h
  | some o =>
    have hcode := code_of_opOfCode hop
    cases hres : hasReservedBits (opRow o) w with
    | true => rw [decode_reservedField hcode hres] at h; cases h
    | false => exact ⟨o, hcode, hres, decode_assemble hcode hres ▸ h⟩

/-! ## Assembling an instruction and taking its word apart (R77, R90) -/

/-- The word w holds the operation and the operands of i. -/
structure HoldsInstr (w : CmdWord) (i : Instr) : Prop where
  code : opcField w = (opRow i.op).code
  b    : bField w = i.bOperand
  y    : yField w = i.yOperand
  x    : xField w = i.xOperand

/-- R76, R90: only the word of an instruction holds the instruction. -/
theorem HoldsInstr.encode_eq {w : CmdWord} {i : Instr} (h : HoldsInstr w i) : encode i = w := by
  rw [encode, ← h.code, ← h.b, ← h.y, ← h.x, packWord_fields]

theorem holdsInstr_encode (i : Instr) : HoldsInstr (encode i) i :=
  ⟨opcField_packWord .., bField_packWord .., yField_packWord .., xField_packWord ..⟩

/-- Per instruction, `Laws.EncodesFields` says that no operand is too wide for its field. -/
theorem hasReservedBits_encode (i : Instr) : hasReservedBits (opRow i.op) (encode i) = false := by
  have hfields : Laws.EncodesFields.Statement i := by
    cases i with
    | setthr v => exact Laws.EncodesFields.setthr v
    | rdreg r => exact Laws.EncodesFields.rdreg r
    | predict b => exact Laws.EncodesFields.predict b
    | deg2t x y b => exact Laws.EncodesFields.deg2t x y b
    | armabs x | armrel x | recedge x | tick x =>
      exact Laws.EncodesFields.of_widths _ x.isLt Nat.one_pos Nat.one_pos
    | _ => exact Laws.EncodesFields.of_widths _ Nat.one_pos Nat.one_pos Nat.one_pos
  obtain ⟨-, -, -, -, hres⟩ := hfields
  exact hres

/-- R77: the operands of a well-formed instruction are read back from a word that holds it. -/
theorem assemble_of_holdsInstr {w : CmdWord} {i : Instr} (h : HoldsInstr w i)
    (hwf : i.wellFormed = true) : assemble i.op w = .ok i := by
  obtain ⟨-, hb, hy, hx⟩ := h
  cases i with
  | predict b =>
    have hrange : advanceInRange b = true := hwf
    simp [assemble, Instr.op, hb, Instr.bOperand, hrange]
  | rdreg r => simp [assemble, Instr.op, hb, Instr.bOperand]
  | setthr v =>
    simp only [assemble, Instr.op, hx, Instr.xOperand]
    rw [BitVec.truncate_eq_setWidth, BitVec.setWidth_setWidth_of_le _ (by decide),
      BitVec.setWidth_eq]
  | deg2t x y b =>
    simp only [assemble, Instr.op, hx, hy, hb, Instr.xOperand, Instr.yOperand, Instr.bOperand]
  | armabs x | armrel x | recedge x | tick x => simp only [assemble, Instr.op, hx, Instr.xOperand]
  | _ => rfl

/-- R77, R88(3), R88(4): an instruction assembled from a word with no reserved bit is well formed, and
the word holds it: the fields it does not take are zero. -/
theorem holdsInstr_of_assemble {w : CmdWord} {o : Op} {i : Instr}
    (hcode : (opRow o).code = opcField w) (hres : hasReservedBits (opRow o) w = false)
    (h : assemble o w = .ok i) : HoldsInstr w i ∧ i.wellFormed = true := by
  have zero {n : Nat} {v : BitVec n} : v.toNat < 2 ^ 0 → v = 0 := toNat_lt_two_pow_zero_iff.mp
  obtain ⟨hx, hy, hb⟩ := hasReservedBits_eq_false_iff.mp hres
  cases o with
  | predict =>
    simp only [assemble] at h
    split at h
    · next hrange =>
      obtain rfl := Except.ok.inj h
      exact ⟨⟨hcode.symm, rfl, zero hy, zero hx⟩, hrange⟩
    · cases h
  | rdreg =>
    simp only [assemble] at h
    split at h
    · next r haddr =>
      obtain rfl := Except.ok.inj h
      exact ⟨⟨hcode.symm, (addr_of_regOfAddr haddr).symm, zero hy, zero hx⟩, rfl⟩
    · cases h
  | setthr =>
    obtain rfl := Except.ok.inj h
    exact ⟨⟨hcode.symm, zero hb, zero hy, (setWidth_setWidth_of_toNat_lt hx).symm⟩, rfl⟩
  | deg2t =>
    obtain rfl := Except.ok.inj h
    exact ⟨⟨hcode.symm, rfl, rfl, rfl⟩, rfl⟩
  | armabs | armrel | recedge | tick =>
    obtain rfl := Except.ok.inj h
    exact ⟨⟨hcode.symm, zero hb, zero hy, rfl⟩, rfl⟩
  | _ =>
    obtain rfl := Except.ok.inj h
    exact ⟨⟨hcode.symm, zero hb, zero hy, zero hx⟩, rfl⟩

theorem decode_encode {i : Instr} (h : i.wellFormed = true) : decode (encode i) = .ok i := by
  have hholds := holdsInstr_encode i
  rw [decode_assemble hholds.code.symm (hasReservedBits_encode i), assemble_of_holdsInstr hholds h]

theorem encode_of_decode {w : CmdWord} {i : Instr} (h : decode w = .ok i) :
    encode i = w ∧ i.wellFormed = true := by
  obtain ⟨o, hcode, hres, hasm⟩ := decode_eq_ok h
  obtain ⟨hholds, hwf⟩ := holdsInstr_of_assemble hcode hres hasm
  exact ⟨hholds.encode_eq, hwf⟩

theorem decode_of_decodeTableWord {n w : Nat} {i : Instr} (h : decodeTableWord n w = some i) :
    decode (BitVec.ofNat 64 w) = .ok i := by
  unfold decodeTableWord at h
  split at h
  · split at h
    · next hd => rw [hd, Option.some.inj h]
    · cases h
  · cases h

end Sys2Proof

namespace Sys2Proof.Machine

/-! ## A step by what stands at the port (R75, R88) -/

theorem step_of_decode_ok {s : State} {w : CmdWord} {rest : List CmdWord} {i : Instr}
    (hport : s.env.port = w :: rest) (hd : decode w = .ok i) :
    step s = exec i { s with env.port := rest } := by
  rw [step, nextWord_ok hport hd]

theorem step_of_decode_error {s : State} {w : CmdWord} {rest : List CmdWord} {r : PortRefusal}
    (hport : s.env.port = w :: rest) (hd : decode w = .error r) :
    step s = .next (refuseWord r { s with env.port := rest }) := by
  rw [step, nextWord_error hport hd]

theorem step_of_no_word {s : State} (hport : s.env.port = []) : step s = .next s := by
  rw [step, nextWord_nil hport]

/-! ## The statements -/

/-- Settles O1: the word of an instruction holds it and bears no reserved bit, so it is assembled. -/
theorem decodeOfEncodeIsTheInstruction : Obligations.DecodeOfEncodeIsTheInstruction :=
  fun _ h => decode_encode h

/-- Settles O2: a word that decodes holds the instruction it was assembled to. -/
theorem encodeOfDecodeIsTheWord : Obligations.EncodeOfDecodeIsTheWord :=
  fun _ _ h => encode_of_decode h

/-- Settles O3: each reason by the first check of R88 that the word fails. -/
theorem refusalReasonsInOrder : Obligations.RefusalReasonsInOrder := by
  refine fun w => ⟨decode_illegalOpcode, fun o hcode hfield => ?_, fun hopc hhigh => ?_,
    fun hopc hx hy hb => ?_, fun hopc hx hy haddr => ?_⟩
  · have hwide : hasReservedBits (opRow o) w = true := by
      rw [hasReservedBits_eq_true_iff]
      obtain ⟨hk, hv⟩ | ⟨hk, hv⟩ | ⟨hk, hv⟩ := hfield
      · exact .inl (two_pow_le_toNat_of_ne_zero hk hv)
      · exact .inr (.inl (two_pow_le_toNat_of_ne_zero hk hv))
      · exact .inr (.inr (two_pow_le_toNat_of_ne_zero hk hv))
    exact decode_reservedField hcode hwide
  · exact decode_reservedField (o := .setthr) hopc.symm
      (hasReservedBits_eq_true_iff.mpr (.inl hhigh))
  · have hrange : advanceInRange (bField w) = false := decide_eq_false (not_le.mpr hb)
    rw [decode_assemble_of_byteOperand (o := .predict) hopc.symm rfl hx hy]
    simp [assemble, hrange]
  · rw [decode_assemble_of_byteOperand (o := .rdreg) hopc.symm rfl hx hy]
    simp [assemble, regOfAddr_eq_none haddr]

/-- Settles O4: what a refused word does is `refuseWord` of the state without the word. -/
theorem refusedWordOnlyRecordsTheReason : Obligations.RefusedWordOnlyRecordsTheReason := by
  refine fun s w rest r hport hd => ⟨step_of_decode_error hport hd, ?_⟩
  cases r <;> rfl

/-- Settles O57: every operation left answers at once, and its own `_seq` lemma says it keeps the
sequencer; WAITAL and PREDICT do so in both of their branches. -/
theorem portOperationsKeepTheSequencer : Obligations.PortOperationsKeepTheSequencer := by
  intro i s hstep hrestart hstartfr heval hfailed hreset
  cases i with
  | waital =>
    refine ⟨_, rfl, ?_⟩
    split
    · exact holdInstr_seq s .waital
    · rfl
  | predict b =>
    refine ⟨_, rfl, ?_⟩
    split
    · exact setRes_seq ..
    · exact refuseWord_seq ..
  | step | restart | startfr | eval | failed | reset => contradiction
  | _ => exact ⟨_, rfl, by simp⟩

/-- Settles O5: a word presented as a number is the head of the port. -/
theorem stepPerformsTheDecodedWord : Obligations.StepPerformsTheDecodedWord := by
  refine ⟨fun s w rest i => step_of_decode_ok, fun s w i hw hd => ?_, fun s => step_of_no_word⟩
  have hword : BitVec.ofNat 64 (w % 2 ^ 64) = BitVec.ofNat 64 w := by rw [Nat.mod_eq_of_lt hw]
  exact step_of_decode_ok (presentWord_port ..) (hword ▸ decode_of_decodeTableWord hd)

/-- Settles O6: each word is closed, so the decoder evaluates on it. -/
theorem specWordsDecode : Obligations.SpecWordsDecode := by
  unfold Obligations.SpecWordsDecode
  decide

end Sys2Proof.Machine

/-! # Proofs of the family 40_timer_scheduler.md -/

namespace Sys2Proof.Machine

/-! ## Arming the alarm (40_timer_scheduler.md R103 to R105) -/

/-- R104: arming drops the previous target and its request, and changes nothing else. -/
theorem armAbsolute_frame (T : Time) (s : State) :
    armAbsolute T s = { s with alarm := (armAbsolute T s).alarm, irq.cmpIrq := false } := rfl

/-- R103: a target at the present time, or up to 2^23 cycles behind it, elapses at once. -/
theorem armAbsolute_alarm_elapsed {T : Time} {s : State}
    (h : distance24 T.toNat s.tau = 0 ∨ 0x800000 ≤ distance24 T.toNat s.tau) :
    (armAbsolute T s).alarm = ⟨false, s.tau⟩ := by
  have helapsed : elapsed T (now s) = true := (elapsed_now T s).mpr h
  simp [armAbsolute, helapsed]

/-- R103: a target 1 to 2^23-1 cycles ahead is pending for that many cycles. -/
theorem armAbsolute_alarm_future {T : Time} {s : State} (h₁ : 1 ≤ distance24 T.toNat s.tau)
    (h₂ : distance24 T.toNat s.tau < 0x800000) :
    (armAbsolute T s).alarm = ⟨true, s.tau + distance24 T.toNat s.tau⟩ := by
  have hahead : (ahead T (now s)).toNat = distance24 T.toNat s.tau := ahead_now T s
  have hpending : elapsed T (now s) = false := by
    rw [Bool.eq_false_iff, ne_eq, elapsed_now, ← distance24]
    omega
  simp [armAbsolute, hpending, hahead]

/-- Settles O9: the two lemmas on the alarm, and the frame of arming. -/
theorem armAbsoluteSetsTheAlarm : Obligations.ArmAbsoluteSetsTheAlarm := fun s T =>
  ⟨_, rfl, armAbsolute_alarm_elapsed, armAbsolute_alarm_future, armAbsolute_frame T s⟩

/-- R105: a delta added to the present time lies that far ahead on the clock. -/
theorem distance24_now_add (s : State) (d : Time) :
    distance24 (now s + d).toNat s.tau = d.toNat := by
  rw [distance24, ← ahead_now, ahead_delta]

/-- Settles O10: ARMREL is ARMABS of a target delta cycles ahead (R105). -/
theorem armRelativeSetsTheAlarm : Obligations.ArmRelativeSetsTheAlarm := by
  intro s d
  have hdist := distance24_now_add s d
  refine ⟨_, rfl, fun h => armAbsolute_alarm_elapsed ?_, fun h₁ h₂ => ?_, armAbsolute_frame _ s⟩
  · rw [hdist]
    exact h.imp_left fun hd => by simp [hd]
  · rw [← hdist] at h₁ h₂ ⊢
    exact armAbsolute_alarm_future h₁ h₂

/-! ## The clock and the compare-match request (R102, R253, R255) -/

/-- Settles O11: TICK is `advanceClock`, whose three writes are those of R102. -/
theorem tickAdvancesTheClock : Obligations.TickAdvancesTheClock :=
  fun _ _ => ⟨_, rfl, rfl, rfl, rfl, rfl⟩

/-- R254, R255: with no PWM request before it, a compare-match request is the one taken, and only its
handler clears the pending alarm. -/
theorem takeIrq_alarmPending {s : State} (hpwm : s.irq.pwmIrq = false) :
    (takeIrq s).2.alarm.alarmPending = (s.alarm.alarmPending && !s.irq.cmpIrq) := by
  cases hcmp : s.irq.cmpIrq with
  | true => simp [takeIrq, hpwm, hcmp, takeCmp, compareHandler]
  | false => cases hovf : s.irq.ovfIrq <;> simp [takeIrq, hpwm, hcmp, hovf]

/-- Settles O12: the armed state is `armRelative_future`'s, the clock then sets the request, and the
taken interrupt is the compare match. -/
theorem futureAlarmElapsesExactlyThen : Obligations.FutureAlarmElapsesExactlyThen := by
  intro s d n h₁ h₂ hpwm
  have harm := armRelative_future s d h₁ h₂
  have hrequest : (advanceClock n.toNat (armRelative d s)).irq.cmpIrq =
      decide (d.toNat ≤ n.toNat) := by
    simp [harm, advanceClock]
  have hpending : (armRelative d s).alarm.alarmPending = true := by rw [harm]
  have hpwm' : (advanceClock n.toNat (armRelative d s)).irq.pwmIrq = false := hpwm
  refine ⟨_, _, _, rfl, rfl, rfl, hpending, hpending, hrequest, ?_⟩
  rw [setRes_alarm, takeIrq_alarmPending hpwm', hrequest, advanceClock_alarm, hpending,
    Bool.true_and, ← decide_not]
  simp only [not_le]

/-! ## Waiting for the alarm (R106) -/

theorem exec_waital_elapsed {s : State} (h : s.alarm.alarmPending = false) :
    exec .waital s = .next s := by
  simp [exec, execWaital, h]

theorem exec_waital_pending {s : State} (h : s.alarm.alarmPending = true) :
    exec .waital s = .next (holdInstr .waital s) := by
  simp [exec, execWaital, h]

/-- Settles O13: the first case of WAITAL. -/
theorem waitCompletesWhenElapsed : Obligations.WaitCompletesWhenElapsed :=
  fun _ => exec_waital_elapsed

/-- R87: the wait is an operation of the foreground. -/
theorem isEventWord_encode_waital : isEventWord (encode .waital) = false := by
  simp [isEventWord, decode_encode (i := .waital) rfl]

/-- A held word that is no event word waits behind the next event word, before every other word. -/
theorem holdWord_order {w : CmdWord} (hw : isEventWord w = false) (ws : List CmdWord) :
    (holdWord w ws).Perm (w :: ws) ∧
    (holdWord w ws).filter (fun v => !isEventWord v) =
      w :: ws.filter (fun v => !isEventWord v) ∧
    (holdWord w ws).filter isEventWord = ws.filter isEventWord ∧
    ∀ e rest, ws.filter isEventWord = e :: rest → (holdWord w ws).head? = some e := by
  cases htake : takeEventWord ws with
  | none =>
    have hevents : ws.filter isEventWord = [] :=
      List.filter_eq_nil_iff.mpr fun v hv => by simp [takeEventWord_none htake v hv]
    simp [holdWord, htake, hw, hevents]
  | some p =>
    obtain ⟨e, rest⟩ := p
    obtain ⟨he, hperm, hothers, hevents⟩ := takeEventWord_some htake
    have hhold : holdWord w ws = e :: w :: rest := by simp [holdWord, htake]
    rw [hhold]
    refine ⟨(List.Perm.swap ..).trans (hperm.cons w), ?_, ?_, ?_⟩
    · simp [he, hw, hothers]
    · simp [he, hw, hevents]
    · intro e' rest' h
      rw [hevents] at h
      rw [List.head?_cons, (List.cons.inj h).1]

/-- Settles O14: the second case of WAITAL, and the order in which the port holds its word. -/
theorem heldWaitStaysAtThePort : Obligations.HeldWaitStaysAtThePort := fun s h =>
  ⟨_, exec_waital_pending h, rfl, holdWord_order isEventWord_encode_waital s.env.port⟩

/-! ## The observation map (10_state.md R39) -/

/-- R85: RDREG answers the element's value in `res` and changes nothing else. -/
theorem rdreg_shows {s : State} {r : Reg} {n : Nat} (h : (readReg r s).toNat = n) :
    ∃ t, exec (.rdreg r) s = .next t ∧ t.status.res.toNat = n ∧
      t = { s with status.res := t.status.res } :=
  ⟨_, rfl, h, rfl⟩

/-- Settles O15: a number is shown zero-extended, a code as the number of its constructor. -/
theorem readRegisterShowsTheElement : Obligations.ReadRegisterShowsTheElement := by
  intro s
  have byte (v : Byte) : (v.zeroExtend 24).toNat = v.toNat :=
    BitVec.toNat_setWidth_of_le (by decide)
  have word (v : Word16) : (v.zeroExtend 24).toNat = v.toNat :=
    BitVec.toNat_setWidth_of_le (by decide)
  refine ⟨rfl, rdreg_shows ?pc, rdreg_shows ?stepIdx, rdreg_shows ?supState, rdreg_shows ?csm,
    rdreg_shows ?pwmMode, rdreg_shows (now_toNat s), rdreg_shows (toTime_toNat _),
    rdreg_shows rfl, rdreg_shows rfl, rdreg_shows rfl, rdreg_shows (word _), rdreg_shows (byte _),
    rdreg_shows (byte _), rdreg_shows rfl, rdreg_shows (word _), rdreg_shows (word _),
    rdreg_shows (word _), rdreg_shows (word _), rdreg_shows (byte _), rdreg_shows (byte _),
    rdreg_shows (byte _), rdreg_shows (byte _), rdreg_shows (byte _), rdreg_shows (byte _),
    rdreg_shows (byte _), rdreg_shows (byte _), rdreg_shows (byte _), rdreg_shows (byte _),
    rdreg_shows ?lastEvent⟩
  case pc => simp only [readReg]; cases s.seq.pc <;> rfl
  case stepIdx => exact (toTime_toNat _).trans (Nat.mod_eq_of_lt (by omega))
  case supState => simp only [readReg]; cases s.start.supState <;> rfl
  case csm =>
    simp only [readReg]
    cases s.comm.csm with
    | allOff => rfl
    | step n => cases n <;> rfl
  case pwmMode => simp only [readReg]; cases s.duty.pwmMode <;> rfl
  case lastEvent =>
    simp only [readReg]
    cases s.status.lastEvent with
    | refused r => cases r <;> rfl
    | _ => rfl

/-! ## The 16-bit paths (R107; 41_timing_predictor.md R126) -/

/-- The third byte of an interval that fits 16 bits is zero. -/
theorem thirdByte_eq_zero {x : Time} (h : x.toNat < 65536) : x.extractLsb' 16 8 = 0 := by
  apply BitVec.eq_of_toNat_eq
  rw [BitVec.extractLsb'_toNat, Nat.shiftRight_eq_div_pow, Nat.div_eq_of_lt h]
  rfl

/-- R126: without its third byte the product of R123 is the cheaper path's. -/
theorem degreesToTime_eq_fast {x : Time} (h : x.toNat < 65536) (y : Time) (b : Byte) :
    degreesToTime x y b = degreesToTimeFast (x.truncate 16) y b := by
  have hb0 : (x.truncate 16).extractLsb' 0 8 = x.extractLsb' 0 8 :=
    BitVec.extractLsb'_setWidth_of_le (by decide)
  have hb1 : (x.truncate 16).extractLsb' 8 8 = x.extractLsb' 8 8 :=
    BitVec.extractLsb'_setWidth_of_le (by decide)
  simp [degreesToTime, degreesAcc, degreesToTimeFast, hb0, hb1, thirdByte_eq_zero h]

/-- R122: below 2^16 and up to 30 degrees the extension's product needs no more than 24 bits. -/
theorem toTime_extension_eq {interval : Time} {b : Byte} (hi : interval.toNat < 65536)
    (hb : b.toNat ≤ 30) :
    toTime (extension interval b) = interval + interval * b.zeroExtend 24 / 180#24 := by
  have hproduct : interval.toNat * b.toNat < 2 ^ 24 :=
    (Nat.mul_le_mul hi.le hb).trans_lt (by decide)
  apply BitVec.eq_of_toNat_eq
  rw [toTime_toNat, BitVec.toNat_add, BitVec.toNat_udiv, BitVec.toNat_mul,
    BitVec.toNat_setWidth_of_le (by decide), Nat.mod_eq_of_lt hproduct]
  rfl

theorem predictNextCrossing_eq_fast {t : TimingState} {b : Byte} (hi : t.interval.toNat < 65536)
    (hb : b.toNat ≤ 30) : predictNextCrossing t b = predictNextCrossingFast t b := by
  rw [predictNextCrossing, predictNextCrossingFast, toTime_extension_eq hi hb]

theorem exec_predict_inRange {s : State} {b : Byte} (hb : b.toNat ≤ 30) :
    exec (.predict b) s = .next (setRes (predictNextCrossing s.timing b) s) := by
  simp [exec, execPredict, advanceInRange, hb]

/-- Settles O20: both operations write what their cheaper paths compute. -/
theorem fastPathsAgree : Obligations.FastPathsAgree := by
  refine fun s x y b => ⟨fun hx => ?_, fun hi hb => ?_⟩
  · rw [← degreesToTime_eq_fast hx]
    rfl
  · rw [exec_predict_inRange hb, predictNextCrossing_eq_fast hi hb]
    rfl

/-! ## The corrected read of the clock (R108, R256) -/

/-- No wrap's request is pending: the high byte has counted every wrap. -/
theorem clockRepresents_counted {c : Word16} {x : Byte} {tau : Nat} :
    clockRepresents ⟨c, x, false⟩ tau = true ↔
      c.toNat = tau % 0x10000 ∧ x.toNat = tau / 0x10000 % 0x100 := by
  have := x.isLt
  simp only [clockRepresents, Bool.and_eq_true, decide_eq_true_eq, Bool.false_eq_true, if_false]
  omega

/-- A wrap's request is pending: the high byte lags by that wrap. -/
theorem clockRepresents_pending {c : Word16} {x : Byte} {tau : Nat} :
    clockRepresents ⟨c, x, true⟩ tau = true ↔
      c.toNat = tau % 0x10000 ∧ (x.toNat + 1) % 0x100 = tau / 0x10000 % 0x100 := by
  simp only [clockRepresents, Bool.and_eq_true, decide_eq_true_eq, if_true]

/-- The read is the clock when its two parts are. -/
theorem correctedRead_eq {h : HwClock} {tau : Nat} (hlow : h.tcnt.toNat = tau % 0x10000)
    (hhigh : (correctedHigh h).toNat = tau / 0x10000 % 0x100) :
    correctedRead h = BitVec.ofNat 24 tau := by
  apply BitVec.eq_of_toNat_eq
  rw [correctedRead, BitVec.toNat_append, ← Nat.shiftLeft_add_eq_or_of_lt h.tcnt.isLt,
    Nat.shiftLeft_eq, BitVec.toNat_ofNat, hlow, hhigh]
  omega

/-- R108: no correction is made for a counter read in its upper half. -/
theorem correctedHigh_upperHalf {h : HwClock} (hc : 0x8000 ≤ h.tcnt.toNat) :
    correctedHigh h = h.tcntx := by
  simp [correctedHigh, Nat.not_lt.mpr hc]

/-- R108: the read of registers that stand for the clock, a pending wrap being a recent one. -/
theorem correctedRead_of_represents {h : HwClock} {tau : Nat}
    (hrep : clockRepresents h tau = true) (hrecent : h.ovf = true → h.tcnt.toNat < 0x8000) :
    correctedRead h = BitVec.ofNat 24 tau := by
  obtain ⟨c, x, ovf⟩ := h
  cases ovf with
  | false =>
    obtain ⟨hlow, hhigh⟩ := clockRepresents_counted.mp hrep
    exact correctedRead_eq hlow (by simpa [correctedHigh] using hhigh)
  | true =>
    obtain ⟨hlow, hhigh⟩ := clockRepresents_pending.mp hrep
    have hc : c.toNat < 0x8000 := hrecent rfl
    exact correctedRead_eq hlow (by simpa [correctedHigh, hc] using hhigh)

/-- R108: a wrap after the counter was read in its upper half does not disturb the read. -/
theorem correctedRead_of_lateWrap {h : HwClock} {tau : Nat}
    (hrep : clockRepresents { h with ovf := false } tau = true) (hc : 0x8000 ≤ h.tcnt.toNat) :
    correctedRead h = BitVec.ofNat 24 tau := by
  obtain ⟨hlow, hhigh⟩ := clockRepresents_counted.mp hrep
  exact correctedRead_eq hlow (by rw [correctedHigh_upperHalf hc, hhigh])

/-- R256: counting a wrap keeps the registers in step exactly when one was pending. -/
theorem clockRepresents_takeOverflow {h : HwClock} {tau : Nat}
    (hrep : clockRepresents h tau = true) : clockRepresents (hwTakeOverflow h) tau = h.ovf := by
  obtain ⟨c, x, ovf⟩ := h
  have hx := x.isLt
  have hcount : (x + 1).toNat = (x.toNat + 1) % 0x100 := BitVec.toNat_add x 1
  rw [hwTakeOverflow]
  cases ovf with
  | false =>
    obtain ⟨hlow, hhigh⟩ := clockRepresents_counted.mp hrep
    rw [Bool.eq_false_iff, ne_eq, clockRepresents_counted, hcount]
    omega
  | true =>
    rw [clockRepresents_counted, hcount]
    exact clockRepresents_pending.mp hrep

/-- R102, R108: the counter runs for fewer than 2^16 cycles, with no second wrap pending. -/
theorem clockRepresents_advance {h : HwClock} {tau n : Nat} (hrep : clockRepresents h tau = true)
    (hn : n < 0x10000) (hwrap : h.ovf = true → h.tcnt.toNat + n < 0x10000) :
    clockRepresents (hwAdvance n h) (tau + n) = true := by
  obtain ⟨c, x, ovf⟩ := h
  have hc := c.isLt
  have hcount : (c + toWord16 n).toNat = (c.toNat + n) % 0x10000 := by
    rw [BitVec.toNat_add, toWord16_toNat, Nat.add_mod_mod]
  simp only [hwAdvance]
  cases ovf with
  | true =>
    obtain ⟨hlow, hhigh⟩ := clockRepresents_pending.mp hrep
    have hsum : c.toNat + n < 0x10000 := hwrap rfl
    rw [Bool.true_or, clockRepresents_pending, hcount]
    omega
  | false =>
    obtain ⟨hlow, hhigh⟩ := clockRepresents_counted.mp hrep
    by_cases hsum : 0x10000 ≤ c.toNat + n
    · rw [decide_eq_true hsum, Bool.or_true, clockRepresents_pending, hcount]
      omega
    · rw [decide_eq_false hsum, Bool.or_false, clockRepresents_counted, hcount]
      omega

/-- Settles O59: the two reads, and the two ways the registers move. -/
theorem correctedReadIsTheClock : Obligations.CorrectedReadIsTheClock := fun _ _ =>
  ⟨correctedRead_of_represents, correctedRead_of_lateWrap, clockRepresents_takeOverflow,
    fun _ => clockRepresents_advance⟩

/-! ## The alarm on the 16-bit compare register (R109, R255) -/

@[simp] theorem hwMatch_compareReg (a : HwAlarm) : (hwMatch a).compareReg = a.compareReg := by
  unfold hwMatch; split <;> rfl

/-- R109: a match with a count left is ignored and counted. -/
theorem hwMatch_of_ext {a : HwAlarm} (h : a.alarmExt.toNat ≠ 0) :
    (hwMatch a).pending = a.pending ∧ (hwMatch a).alarmExt.toNat = a.alarmExt.toNat - 1 := by
  have hne : a.alarmExt ≠ 0 := fun h0 => h (by simp [h0])
  have hlt := a.alarmExt.isLt
  simp only [hwMatch, bne_iff_ne, ne_eq, hne, not_false_eq_true, if_true, true_and]
  rw [BitVec.toNat_sub_of_le (by simp [BitVec.le_def]; omega)]
  rfl

/-- R109: a match with no count left clears the alarm. -/
theorem hwMatch_pending_of_no_ext {a : HwAlarm} (h : a.alarmExt.toNat = 0) :
    (hwMatch a).pending = false := by
  have h0 : a.alarmExt = 0 := BitVec.eq_of_toNat_eq h
  simp [hwMatch, h0]

/-- R255: no match sets the alarm pending again. -/
theorem hwMatch_elapsed {a : HwAlarm} (h : a.pending = false) : (hwMatch a).pending = false := by
  unfold hwMatch; split
  · exact h
  · rfl

@[simp] theorem hwAlarmRun_compareReg (tau : Nat) (a : HwAlarm) (k : Nat) :
    (hwAlarmRun tau a k).compareReg = a.compareReg := by
  induction k with
  | zero => rfl
  | succ k ih => simp only [hwAlarmRun]; split <;> simp [ih]

theorem hwAlarmRun_succ_match {tau : Nat} {a : HwAlarm} {k : Nat}
    (h : (tau + (k + 1)) % 0x10000 = a.compareReg.toNat) :
    hwAlarmRun tau a (k + 1) = hwMatch (hwAlarmRun tau a k) := by
  simp [hwAlarmRun, h]

theorem hwAlarmRun_succ_no_match {tau : Nat} {a : HwAlarm} {k : Nat}
    (h : (tau + (k + 1)) % 0x10000 ≠ a.compareReg.toNat) :
    hwAlarmRun tau a (k + 1) = hwAlarmRun tau a k := by
  simp [hwAlarmRun, h]

theorem hwAlarmRun_stays_elapsed {tau : Nat} {a : HwAlarm} {d : Nat}
    (h : (hwAlarmRun tau a d).pending = false) (k : Nat) (hk : d ≤ k) :
    (hwAlarmRun tau a k).pending = false := by
  induction k, hk using Nat.le_induction with
  | base => exact h
  | succ k _ ih =>
    rw [hwAlarmRun]
    split
    · exact hwMatch_elapsed ih
    · exact ih

/-- The alarm is armed d cycles after tau: the compare register holds that time's low word, and the
extension count is the number of matches before it (R109). -/
structure ArmedFor (a : HwAlarm) (tau d : Nat) : Prop where
  compareReg : a.compareReg.toNat = (tau + d) % 0x10000
  alarmExt   : a.alarmExt.toNat = (d - 1) / 0x10000
  pending    : a.pending = true

/-- Before its time the alarm is pending, and the count is the number of matches still to ignore: a
cycle matches when the cycles left after it are a multiple of 2^16. -/
theorem hwAlarmRun_before {tau d : Nat} {a : HwAlarm} (h : ArmedFor a tau d) (k : Nat)
    (hk : k < d) :
    (hwAlarmRun tau a k).alarmExt.toNat = (d - 1 - k) / 0x10000 ∧
      (hwAlarmRun tau a k).pending = true := by
  induction k with
  | zero => exact ⟨h.alarmExt, h.pending⟩
  | succ k ih =>
    obtain ⟨hext, hpending⟩ := ih (by omega)
    by_cases hmatch : (tau + (k + 1)) % 0x10000 = (tau + d) % 0x10000
    · obtain ⟨hpending', hext'⟩ := hwMatch_of_ext (a := hwAlarmRun tau a k) (by omega)
      rw [hwAlarmRun_succ_match (hmatch.trans h.compareReg.symm), hpending', hext', hext]
      exact ⟨by omega, hpending⟩
    · rw [hwAlarmRun_succ_no_match (h.compareReg ▸ hmatch), hext]
      exact ⟨by omega, hpending⟩

/-- At its time the alarm's match finds no count left and clears it. -/
theorem hwAlarmRun_at {tau d : Nat} {a : HwAlarm} (h : ArmedFor a tau d) (hd : 1 ≤ d) :
    (hwAlarmRun tau a d).pending = false := by
  obtain ⟨k, rfl⟩ := Nat.exists_eq_add_of_le' hd
  obtain ⟨hext, -⟩ := hwAlarmRun_before h k (by omega)
  rw [hwAlarmRun_succ_match h.compareReg.symm]
  exact hwMatch_pending_of_no_ext (hext.trans (by simp))

theorem hwAlarmRun_pending {tau d : Nat} {a : HwAlarm} (h : ArmedFor a tau d) (hd : 1 ≤ d)
    (k : Nat) :
    (hwAlarmRun tau a k).pending = decide (k < d) := by
  by_cases hk : k < d
  · rw [(hwAlarmRun_before h k hk).2, decide_eq_true hk]
  · rw [hwAlarmRun_stays_elapsed (hwAlarmRun_at h hd) k (by omega), decide_eq_false hk]

/-- R109: a target in the future is armed for its distance. -/
theorem armedFor_hwArm {tau : Nat} {T : Time} (h : distance24 T.toNat tau < 0x800000) :
    ArmedFor (hwArm T (BitVec.ofNat 24 tau)) tau (distance24 T.toNat tau) where
  compareReg := by
    have := T.isLt
    simp only [hwArm, BitVec.extractLsb'_toNat, Nat.shiftRight_zero, distance24]
    omega
  alarmExt := by
    have hahead : (ahead T (BitVec.ofNat 24 tau)).toNat = distance24 T.toNat tau := by
      rw [ahead, sub_toNat, BitVec.toNat_ofNat, Nat.mod_mod, distance24]
    simp only [hwArm, toByte_toNat, hahead]
    omega
  pending := rfl

/-- Settles O60: the armed alarm stays pending for its distance, by induction on the cycles. -/
theorem extendedAlarmElapsesOnTime : Obligations.ExtendedAlarmElapsesOnTime :=
  fun _ _ h₁ h₂ => hwAlarmRun_pending (armedFor_hwArm h₂) h₁

end Sys2Proof.Machine

/-! # Proofs of the family 41_timing_predictor.md -/

namespace Sys2Proof.Machine

/-! ## Restoring division (R125) -/

/-- A dividend with one more bit b: the quotient and the remainder double, and the divisor is taken
off once more when the doubled remainder reaches it. -/
theorem div_mod_appendBit {M D b : Nat} (hD : 0 < D) (hb : b < 2) :
    (2 * M + b) / D = 2 * (M / D) + (if D ≤ 2 * (M % D) + b then 1 else 0) ∧
    (2 * M + b) % D = 2 * (M % D) + b - (if D ≤ 2 * (M % D) + b then D else 0) := by
  have hM : D * (M / D) + M % D = M := Nat.div_add_mod M D
  have hr : M % D < D := Nat.mod_lt M hD
  rw [Nat.div_mod_unique hD]
  split
  · rw [Nat.mul_add, Nat.mul_left_comm]; omega
  · rw [Nat.add_zero, Nat.mul_left_comm]; omega

/-- The bits of the dividend from bit i up are those from bit i+1 up, and bit i. -/
theorem div_two_pow_eq_appendBit (N : BitVec 32) (i : Nat) :
    N.toNat / 2 ^ i = 2 * (N.toNat / 2 ^ (i + 1)) + (N.getLsbD i).toNat := by
  rw [pow_succ, ← Nat.div_div_eq_div_mul, BitVec.getLsbD, Nat.toNat_testBit, Nat.div_add_mod]

/-- R125: shifting a bit into a remainder below 2^24 loses nothing of the 25 bits. -/
theorem shiftIn_toNat {r : BitVec 25} (hr : r.toNat < 2 ^ 24) (b : Bool) :
    ((r <<< 1) ||| (BitVec.ofBool b).zeroExtend 25).toNat = 2 * r.toNat + b.toNat := by
  have hshift : (r <<< 1).toNat = 2 ^ 1 * r.toNat := by
    rw [BitVec.toNat_shiftLeft, Nat.shiftLeft_eq]; omega
  have hbit : ((BitVec.ofBool b).zeroExtend 25).toNat = b.toNat := by cases b <;> rfl
  rw [BitVec.toNat_or, hshift, hbit, ← Nat.two_pow_add_eq_or_of_lt b.toNat_lt, pow_one]

/-- R125: setting quotient bit i adds 2^i, while bit i and the bits below it are zero. -/
theorem setBit_toNat {q : BitVec 32} {i m : Nat} (hi : i < 32) (hq : q.toNat = 2 ^ (i + 1) * m) :
    (q ||| (1#32 <<< i)).toNat = 2 ^ i * (2 * m + 1) := by
  have hbit : (1#32 <<< i).toNat = 2 ^ i := by
    rw [← BitVec.twoPow_eq, BitVec.toNat_twoPow_of_lt hi]
  have hbelow : 2 ^ i < 2 ^ (i + 1) := Nat.pow_lt_pow_right (by decide) i.lt_succ_self
  rw [BitVec.toNat_or, hq, hbit, ← Nat.two_pow_add_eq_or_of_lt hbelow]
  ring

/-- R125: the rounds down to dividend bit i have divided the dividend's bits from i up. -/
structure DividedTo (N : BitVec 32) (D : Time) (i : Nat) (qr : BitVec 32 × BitVec 25) : Prop where
  quotient  : qr.1.toNat = 2 ^ i * (N.toNat / 2 ^ i / D.toNat)
  remainder : qr.2.toNat = N.toNat / 2 ^ i % D.toNat

/-- Before the first round no bit has been divided. -/
theorem dividedTo_start (N : BitVec 32) (D : Time) : DividedTo N D 32 (0, 0) where
  quotient := by simp [Nat.div_eq_of_lt N.isLt]
  remainder := by simp [Nat.div_eq_of_lt N.isLt]

/-- One round divides one more bit. -/
theorem dividedTo_restoreRound {N : BitVec 32} {D : Time} {i : Nat} {qr : BitVec 32 × BitVec 25}
    (hD : 1 ≤ D.toNat) (hi : i < 32) (h : DividedTo N D (i + 1) qr) :
    DividedTo N D i (restoreRound N D i qr) := by
  obtain ⟨q, r⟩ := qr
  obtain ⟨hq, hr⟩ := h
  dsimp only at hq hr
  have hlt : r.toNat < 2 ^ 24 := hr ▸ (Nat.mod_lt _ hD).trans D.isLt
  have hwiden : (D.zeroExtend 25).toNat = D.toNat := BitVec.toNat_setWidth_of_le (by decide)
  have hshift := shiftIn_toNat hlt (N.getLsbD i)
  obtain ⟨hquot, hrem⟩ := div_mod_appendBit (M := N.toNat / 2 ^ (i + 1)) hD (N.getLsbD i).toNat_lt
  rw [← div_two_pow_eq_appendBit, ← hr] at hquot hrem
  unfold restoreRound
  dsimp only
  split
  · next hle =>
    rw [hshift] at hle
    rw [if_pos hle] at hquot hrem
    constructor
    · exact (setBit_toNat hi hq).trans (by rw [hquot])
    · rw [BitVec.toNat_sub_of_le (by rwa [BitVec.le_def, hwiden, hshift]), hshift, hrem, hwiden]
  · next hgt =>
    rw [hshift] at hgt
    rw [if_neg hgt] at hquot hrem
    constructor
    · rw [hq, hquot]; ring
    · exact hshift.trans hrem.symm

/-- The rounds left divide the bits left. -/
theorem dividedTo_restoreRounds {N : BitVec 32} {D : Time} (hD : 1 ≤ D.toNat) {i : Nat}
    {qr : BitVec 32 × BitVec 25} (hi : i ≤ 32) (h : DividedTo N D i qr) :
    DividedTo N D 0 (restoreRounds N D i qr) := by
  induction i generalizing qr with
  | zero => exact h
  | succ i ih => exact ih (Nat.le_of_succ_le hi) (dividedTo_restoreRound hD hi h)

theorem restoringDivMod_toNat (N : BitVec 32) {D : Time} (hD : 1 ≤ D.toNat) :
    (restoringDivMod N D).1.toNat = N.toNat / D.toNat ∧
    (restoringDivMod N D).2.toNat = N.toNat % D.toNat := by
  obtain ⟨hq, hr⟩ := dividedTo_restoreRounds hD le_rfl (dividedTo_start N D)
  rw [pow_zero, Nat.div_one, one_mul] at hq
  rw [pow_zero, Nat.div_one] at hr
  exact ⟨hq, hr⟩

/-- Settles O21: by induction on the rounds, each dividing one more bit of the dividend. -/
theorem restoringDivisionIsExact : Obligations.RestoringDivisionIsExact :=
  fun N _ hD => restoringDivMod_toNat N hD

/-! ## The timing limit (R124) -/

/-- R124: an interval shorter than the threshold's is not limited. -/
theorem timingDutyLimitOf_fast {c : Config} {interval : Time} (h : interval.toNat < 1700) :
    timingDutyLimitOf c interval = c.MAX_POWER :=
  if_pos h

/-- R124: from the threshold on, the limit is the reciprocal of the interval, capped. -/
theorem timingDutyLimitOf_slow {c : Config} {interval : Time} (h : 1700 ≤ interval.toNat) :
    (timingDutyLimitOf c interval).toNat =
      min (c.TIMING_LIMIT_NUM.toNat / interval.toNat) c.MAX_POWER.toNat := by
  have hquot : (restoringDivide c.TIMING_LIMIT_NUM interval).toNat =
      c.TIMING_LIMIT_NUM.toNat / interval.toNat :=
    (restoringDivMod_toNat _ (by omega)).1
  have hslow : ¬ interval.toNat < Config.SPEED_THRESHOLD_INTERVAL.toNat := not_lt.mpr h
  rw [timingDutyLimitOf, if_neg hslow, toWord16_toNat, hquot]
  exact Nat.mod_eq_of_lt ((min_le_right _ _).trans_lt c.MAX_POWER.isLt)

/-- Settles O22: TLIMIT writes `timingDutyLimitOf`. -/
theorem timingLimitIsTheCappedReciprocal : Obligations.TimingLimitIsTheCappedReciprocal :=
  fun _ => ⟨_, rfl, timingDutyLimitOf_fast, timingDutyLimitOf_slow, rfl⟩

/-! ## Recording an edge (R120) -/

/-- The edge is too close exactly when its forward distance is below MIN_INTERVAL. -/
theorem overspeed_eq_true_iff {T : Time} {s : State} : overspeed T s = true ↔
    distance24 T.toNat s.timing.lastEdge.toNat < s.cfg.MIN_INTERVAL.toNat := by
  rw [overspeed, decide_eq_true_iff, sub_toNat, distance24]

/-- R120: an edge far enough from the last one writes the predictor's edges and interval only. -/
theorem recordEdge_of_not_overspeed {T : Time} {s : State} (h : overspeed T s = false) :
    recordEdge T s = { s with
      timing.lastLastEdge := s.timing.lastEdge
      timing.lastEdge := T
      timing.interval := T - s.timing.lastEdge
      timing.fastPathEligible := decide ((T - s.timing.lastEdge).toNat < 0x10000) } := by
  simp [recordEdge, newInterval, h]

/-- R120: an edge too close to the last one is taken as MIN_INTERVAL away, halves the ceiling and
records the event. -/
theorem recordEdge_of_overspeed {T : Time} {s : State} (h : overspeed T s = true) :
    recordEdge T s = { s with
      timing.lastLastEdge := s.timing.lastEdge
      timing.lastEdge := T
      timing.interval := s.cfg.MIN_INTERVAL
      timing.fastPathEligible := decide (s.cfg.MIN_INTERVAL.toNat < 0x10000)
      duty.rateLimitedDuty := s.duty.rateLimitedDuty >>> 1
      status.lastEvent := .overspeedClamp } := by
  simp [recordEdge, newInterval, h, overspeedClamp, raise]

/-- Settles O17: the two cases of `recordEdge`. -/
theorem recordEdgeClampsTheInterval : Obligations.RecordEdgeClampsTheInterval := by
  refine fun s T => ⟨recordEdge T s, rfl, ?_⟩
  cases h : overspeed T s with
  | true =>
    have hnear := overspeed_eq_true_iff.mp h
    rw [recordEdge_of_overspeed h]
    refine ⟨rfl, rfl, rfl, rfl, fun hfar => absurd hnear (not_lt.mpr hfar), fun _ => ⟨rfl, ?_, rfl⟩⟩
    exact (BitVec.toNat_ushiftRight ..).trans (Nat.shiftRight_eq_div_pow ..)
  | false =>
    have hfar := mt overspeed_eq_true_iff.mpr (Bool.eq_false_iff.mp h)
    rw [recordEdge_of_not_overspeed h]
    exact ⟨rfl, rfl, rfl, rfl, fun _ => ⟨sub_toNat T s.timing.lastEdge, rfl⟩,
      fun hnear => absurd hnear hfar⟩

/-! ## Predicting a crossing (R121, R122) -/

/-- R121 as arithmetic. -/
theorem edgeMidpoint_toNat (t : TimingState) : (edgeMidpoint t).toNat =
    (t.lastLastEdge.toNat + distance24 t.lastEdge.toNat t.lastLastEdge.toNat / 2) % 0x1000000 := by
  rw [edgeMidpoint, BitVec.toNat_add, BitVec.toNat_ushiftRight, sub_toNat,
    Nat.shiftRight_eq_div_pow, pow_one, distance24]

/-- R122 as arithmetic: the reductions of the two summands do not show in their sum. -/
theorem predictNextCrossing_toNat (t : TimingState) (b : Byte) :
    (predictNextCrossing t b).toNat =
      (t.lastLastEdge.toNat + distance24 t.lastEdge.toNat t.lastLastEdge.toNat / 2
        + t.interval.toNat + t.interval.toNat * b.toNat / 180) % 0x1000000 := by
  rw [predictNextCrossing, BitVec.toNat_add, edgeMidpoint_toNat, toTime_toNat, ← Nat.add_mod,
    extension, ← Nat.add_assoc]

/-- Settles O18: PREDICT writes `predictNextCrossing` to `res`. -/
theorem predictGivesTheNextCrossing : Obligations.PredictGivesTheNextCrossing :=
  fun s b hb => ⟨_, exec_predict_inRange hb, predictNextCrossing_toNat s.timing b, rfl⟩

/-! ## Degrees to time (R123) -/

/-- R123: a byte of the interval times the degrees, shifted to its place, fits the accumulator. -/
theorem byteProduct_toNat (v d : Byte) {k : Nat} (hk : k ≤ 16) :
    ((v.zeroExtend 32 * d.zeroExtend 32) <<< k).toNat = v.toNat * d.toNat * 2 ^ k := by
  have hwiden (u : Byte) : (u.zeroExtend 32).toNat = u.toNat :=
    BitVec.toNat_setWidth_of_le (by decide)
  have hproduct : v.toNat * d.toNat < 2 ^ 8 * 2 ^ 8 := Nat.mul_lt_mul'' v.isLt d.isLt
  have hplaced : v.toNat * d.toNat * 2 ^ k < 2 ^ 8 * 2 ^ 8 * 2 ^ 16 :=
    Nat.mul_lt_mul_of_lt_of_le hproduct (Nat.pow_le_pow_right (by decide) hk) (by decide)
  rw [BitVec.toNat_shiftLeft, BitVec.toNat_mul, hwiden, hwiden, Nat.shiftLeft_eq,
    Nat.mod_eq_of_lt (hproduct.trans (by decide))]
  exact Nat.mod_eq_of_lt hplaced

/-- An interval is the sum of its three bytes at their places. -/
theorem time_toNat_eq_bytes (x : Time) : x.toNat = (x.extractLsb' 0 8).toNat +
    (x.extractLsb' 8 8).toNat * 2 ^ 8 + (x.extractLsb' 16 8).toNat * 2 ^ 16 := by
  have := x.isLt
  simp only [BitVec.extractLsb'_toNat, Nat.shiftRight_eq_div_pow]
  omega

/-- R123: the accumulator holds the exact product. -/
theorem degreesAcc_toNat (x : Time) (b : Byte) : (degreesAcc x b).toNat = x.toNat * b.toNat := by
  have hsum : x.toNat * b.toNat = (x.extractLsb' 0 8).toNat * b.toNat +
      (x.extractLsb' 8 8).toNat * b.toNat * 2 ^ 8 +
      (x.extractLsb' 16 8).toNat * b.toNat * 2 ^ 16 := by
    rw [time_toNat_eq_bytes x]; ring
  have hfits : x.toNat * b.toNat < 2 ^ 24 * 2 ^ 8 := Nat.mul_lt_mul'' x.isLt b.isLt
  have h0 := byteProduct_toNat (x.extractLsb' 0 8) b (Nat.zero_le 16)
  rw [BitVec.shiftLeft_zero, pow_zero, mul_one] at h0
  rw [degreesAcc, BitVec.toNat_add, BitVec.toNat_add, h0, byteProduct_toNat _ _ (by decide),
    byteProduct_toNat _ _ (by decide)]
  omega

/-- R123 as arithmetic. -/
theorem degreesToTime_toNat (x y : Time) (b : Byte) :
    (degreesToTime x y b).toNat = (y.toNat + x.toNat * b.toNat / 256) % 0x1000000 := by
  rw [degreesToTime, BitVec.toNat_add, BitVec.truncate_eq_setWidth, BitVec.toNat_setWidth,
    BitVec.toNat_ushiftRight, degreesAcc_toNat, Nat.shiftRight_eq_div_pow, Nat.add_mod_mod]

/-- Settles O19: DEG2T writes `degreesToTime` to `res`. -/
theorem degreesToTimeIsTheFloorProduct : Obligations.DegreesToTimeIsTheFloorProduct :=
  fun _ x y b => ⟨_, rfl, degreesAcc_toNat x b, degreesToTime_toNat x y b, rfl⟩

end Sys2Proof.Machine

/-! # Proofs of the family 42_commutation.md -/

namespace Sys2Proof.Machine

/-! ## The table of the six states (R140 to R142) -/

/-- The model's successor in the configured direction is the one the spec's table prints (R140). -/
theorem specTable140_successor (c : Config) : ∀ r ∈ specTable140,
    successor c r.state = if c.REVERSE then r.reverse else r.forward := by
  unfold successor
  cases c.REVERSE <;> decide

/-- R142: the phase a commutation comes to sense was a driven phase of the state it leaves. -/
theorem floatPhase_enteredStep (c : Config) (m : Csm) :
    floatPhase (enteredStep c m) = highPhase (previousStep c m) ∨
      floatPhase (enteredStep c m) = lowPhase (previousStep c m) := by
  cases m with
  | allOff =>
    simp only [enteredStep, previousStep]
    cases c.REVERSE <;> decide
  | step n =>
    simp only [enteredStep, previousStep, successor]
    cases c.REVERSE <;> cases n <;> decide

/-- R146: a commutation leaves the phases of the step it enters, whatever they were before. -/
theorem phasesMatch_commutate (s : State) : PhasesMatch (commutate s) := by
  simp [PhasesMatch, commutate_comm]

/-- R140, R142: a commutation from one row of the table to another, as the rows print it. -/
theorem commutate_follows_rows {s : State} {r n : SpecRow140} (hr : r ∈ specTable140)
    (hn : n ∈ specTable140) (hleft : previousStep s.cfg s.comm.csm = r.state)
    (hentered : enteredStep s.cfg s.comm.csm = n.state) :
    phasesOfRow s.cfg n (commutate s).comm ∧
      (commutate s).comm.preLevel = decide (n.float = r.hi) ∧
      ((commutate s).comm.preLevel = false → n.float = r.lo) := by
  obtain ⟨hhi, hlo, _⟩ := specTable140_phases r hr
  obtain ⟨_, _, hfloat⟩ := specTable140_phases n hn
  have hphases : phasesOfRow s.cfg n (commutate s).comm := by
    have hcsm : (commutate s).comm.csm = .step n.state := by rw [commutate_comm, hentered]
    simpa only [State.cfg, commutate_config] using
      phasesOfRow_of_phasesMatch (phasesMatch_commutate s) hn hcsm
  have hpre : (commutate s).comm.preLevel = decide (n.float = r.hi) := by
    rw [commutate_comm, preLevelOf, hentered, hleft, hfloat, hhi]
  have hdriven : n.float = r.hi ∨ n.float = r.lo := by
    simpa only [hentered, hleft, hfloat, hhi, hlo] using floatPhase_enteredStep s.cfg s.comm.csm
  exact ⟨hphases, hpre, fun hfalse => hdriven.resolve_left (by simpa [hpre] using hfalse)⟩

/-- Settles O23: the rows a commutation leaves and enters are those of the configured direction. -/
theorem commutationFollowsTheTable : Obligations.CommutationFollowsTheTable := by
  refine fun s r hr n hn => ⟨fun hcsm hnext => ?_, fun hcsm hnext hprev => ?_⟩
  · refine ⟨_, rfl, commutate_follows_rows hr hn ?_ ?_⟩
    · rw [hcsm, previousStep]
    · rw [hcsm, enteredStep, specTable140_successor s.cfg r hr, hnext]
  · refine ⟨_, rfl, commutate_follows_rows hr hn ?_ ?_⟩
    · rw [hcsm, previousStep, hprev]
    · rw [hcsm, enteredStep, hnext]

/-! ## The switches after a commutation (R143, R146) -/

section AfterCommutation
variable {s : State}

/-- R285(1): the phase the waveform comes to switch was not the fixed one, so moving the fixed phase
does not open its switch. -/
theorem fixedPhase_ne_entered_pwmPhase (h : PhasesMatch s) :
    s.comm.fixedPhase ≠ some (pwmPhaseOf s.cfg (enteredStep s.cfg s.comm.csm)) := by
  cases hcsm : s.comm.csm with
  | allOff =>
    obtain ⟨_, hfixed, _⟩ := (phasesMatch_allOff_iff h).mp hcsm
    simp [hfixed]
  | step n =>
    obtain ⟨_, hfixed, _⟩ := phasesMatch_step h hcsm
    rw [hfixed]
    exact fun heq => (successor_phases_ne s.cfg n).1 (Option.some.inj heq).symm

/-- R146(2): the new PWM phase is at its side while powered, with the waveform on. -/
theorem commutate_pwm_switch (h : PhasesMatch s) :
    (commutate s).sw.get (pwmPhaseOf s.cfg (enteredStep s.cfg s.comm.csm)) =
      if commutationPowered s && s.wave.pwmEnabled && s.wave.pwmOut then sideP s.cfg else .off := by
  obtain ⟨hne, _, _⟩ := step_phases_ne s.cfg (enteredStep s.cfg s.comm.csm)
  have hold := fixedPhase_ne_entered_pwmPhase h
  simp [commutate_sw, get_floatOld, hne, hold]

/-- R146(3): the new fixed phase is at its side while powered. -/
theorem commutate_fixed_switch (s : State) :
    (commutate s).sw.get (fixedPhaseOf s.cfg (enteredStep s.cfg s.comm.csm)) =
      if commutationPowered s then sideF s.cfg else .off := by
  simp [commutate_sw]

/-- R147: the phase a commutation comes to sense is off after it. -/
theorem commutate_sense_switch (h : Inv s) :
    (commutate s).sw.get (floatPhase (enteredStep s.cfg s.comm.csm)) = .off :=
  sense_switch_off (inv_commutate h) (by rw [commutate_comm])

/-- R143: a commutation without power opens every switch. -/
theorem commutate_sw_of_unpowered (h : Inv s) (hoff : commutationPowered s = false) :
    (commutate s).sw = Switches.allOff := by
  obtain ⟨hpwm_fixed, hpwm_sense, hfixed_sense⟩ :=
    step_phases_ne s.cfg (enteredStep s.cfg s.comm.csm)
  refine Switches.ext_get fun p => ?_
  rw [Switches.get_allOff]
  obtain rfl | rfl | rfl := phase_cases p _ _ _ hpwm_fixed hpwm_sense hfixed_sense
  · simp [commutate_pwm_switch h.phases, hoff]
  · simp [commutate_fixed_switch, hoff]
  · exact commutate_sense_switch h

/-- R143: a commutation uses up the demag skip, and keeps the suppression only then. -/
theorem commutate_wave (s : State) : (commutate s).wave = { s.wave with
    demagSkip := false, pwmSuppressed := s.wave.demagSkip && s.wave.pwmSuppressed } := by
  rw [commutate_frame]

/-- R143: a commutation without power clears goodies. -/
theorem commutate_goodies (s : State) :
    (commutate s).start.goodies = if commutationPowered s then s.start.goodies else 0 := by
  rw [commutate_frame]

end AfterCommutation

/-- Settles O24: the three phases of the entered step, a switch each, and the frame of R146. -/
theorem commutationSwitchesTheStage : Obligations.CommutationSwitchesTheStage := by
  intro s h
  obtain ⟨hpwm_fixed, hpwm_sense, hfixed_sense⟩ :=
    step_phases_ne s.cfg (enteredStep s.cfg s.comm.csm)
  refine ⟨commutate s, _, _, _, rfl, by rw [commutate_comm], by rw [commutate_comm],
    by rw [commutate_comm], hpwm_fixed, hpwm_sense, hfixed_sense,
    ⟨commutate_pwm_switch h.phases, commutate_fixed_switch s, commutate_sense_switch h,
      commutate_goodies s⟩, by rw [commutate_wave], by rw [commutate_wave], ?_⟩
  rw [commutate_wave, commutate_goodies]
  exact commutate_frame s

/-! ## The commutation after a demagnetization timeout (R165, R143) -/

/-- R165: a demagnetization timeout asks for one unpowered commutation. -/
theorem demagTimeout_wave (s : State) : (demagTimeout s).wave =
    { s.wave with pwmSuppressed := true, demagSkip := true } := rfl

theorem commutationPowered_demagTimeout (s : State) :
    commutationPowered (demagTimeout s) = false := rfl

/-- R143: right after a commutation no demag skip is left, so the power flag alone decides. -/
theorem commutationPowered_commutate (s : State) :
    commutationPowered (commutate s) = s.duty.powerOnFlag := by
  simp [commutationPowered, commutate_wave]

/-- Settles O25: the first commutation is unpowered and uses up the skip, so the second is powered. -/
theorem demagTimeoutSkipsOneCommutation : Obligations.DemagTimeoutSkipsOneCommutation := by
  intro s h hon
  have hpowered : commutationPowered (commutate (demagTimeout s)) = true := by
    rw [commutationPowered_commutate, demagTimeout_duty, hon]
  refine ⟨_, _, _, rfl, rfl, rfl, commutate_sw_of_unpowered (inv_demagTimeout h)
    (commutationPowered_demagTimeout s), ?_, ?_, ?_, fun p hp => ?_⟩
  · rw [commutate_wave, demagTimeout_wave, Bool.and_self]
  · rw [commutate_wave]
  · rw [commutate_wave, commutate_wave, Bool.false_and]
  · rw [commutate_comm] at hp
    obtain rfl := Option.some.inj hp
    rw [commutate_fixed_switch, if_pos hpowered]
    simp only [State.cfg, commutate_config, demagTimeout_config]

/-! ## Every run (R147, R251) -/

/-- From a state that meets the invariant a run goes on for any number of steps and keeps it. -/
theorem runs_keep_inv (k : Nat) : ∀ {s : State}, Inv s → ∃ t, Runs k s t ∧ Inv t := by
  induction k with
  | zero => exact fun {s} h => ⟨s, rfl, h⟩
  | succ k ih =>
    intro s h
    obtain ⟨m, hstep, hm⟩ := inv_step h
    obtain ⟨t, hrun, ht⟩ := ih hm
    exact ⟨t, ⟨m, hstep, hrun⟩, ht⟩

/-- Settles O29: every state a run passes meets the invariant, and so is safe. -/
theorem everyRunIsSafe : Obligations.EveryRunIsSafe := by
  intro s k h j _
  obtain ⟨t, hrun, ht⟩ := runs_keep_inv j h
  obtain ⟨hsafe, _⟩ := invariantMeansSafe t ht
  exact ⟨t, hrun, hsafe⟩

/-! ## ALLOFF (R148) -/

/-- Settles O26: ALLOFF is `allOff`, which writes the switches and the commutation state. -/
theorem allOffOpensEverySwitch : Obligations.AllOffOpensEverySwitch := fun _ => rfl

end Sys2Proof.Machine

/-! # Proofs of the family 43_zero_cross.md -/

namespace Sys2Proof.Machine

/-! ## Values the zero-cross engine writes -/

/-- A number that is at most a byte's value fits a byte. -/
theorem toByte_toNat_of_le {n : Nat} {b : Byte} (h : n ≤ b.toNat) : (toByte n).toNat = n := by
  rw [toByte_toNat]
  exact Nat.mod_eq_of_lt (h.trans_lt b.isLt)

/-- R170: the width is a quarter of the interval, clamped. -/
theorem zcWidth_toNat (c : Config) (interval : Time) : (zcWidth c interval).toNat =
    min (max (interval.toNat / 4) c.ZC_FILTER_MIN.toNat) c.ZC_FILTER_MAX.toNat :=
  toByte_toNat_of_le (min_le_right _ _)

/-- R123 as one 24-bit number. -/
theorem degreesToTime_eq_ofNat (x y : Time) (b : Byte) :
    degreesToTime x y b = BitVec.ofNat 24 (y.toNat + x.toNat * b.toNat / 256) :=
  BitVec.eq_of_toNat_eq (by rw [degreesToTime_toNat, BitVec.toNat_ofNat])

/-- R101, R123: from the present time, the degrees count from the unbounded clock. -/
theorem degreesToTime_now (x : Time) (s : State) (b : Byte) :
    degreesToTime x (now s) b = BitVec.ofNat 24 (s.tau + x.toNat * b.toNat / 256) := by
  rw [degreesToTime_eq_ofNat, now_toNat, BitVec.ofNat_add, BitVec.ofNat_add s.tau]
  congr 1
  exact BitVec.eq_of_toNat_eq (by simp)

/-- R160: the demagnetization window that begins now. -/
theorem demagWindowEnd_now (s : State) : demagWindowEnd (now s) s =
    BitVec.ofNat 24 (s.tau + s.timing.interval.toNat * s.cfg.DEMAG_DEGREES.toNat / 256
      + s.start.startDelay.toNat * s.cfg.START_DELAY_UNIT.toNat) := by
  rw [demagWindowEnd, degreesToTime_now, toTime, ← BitVec.ofNat_add]

/-! ## Arming the detector (R160, R167) -/

/-- Settles O32: ZCARM arms at the end of the window, and the filter starts at its width. -/
theorem zcArmOpensTheDemagWindow : Obligations.ZcArmOpensTheDemagWindow := by
  intro s
  rw [← demagWindowEnd_now]
  exact ⟨_, _, rfl, rfl, zcWidth_toNat _ _, rfl, zcWidth_pos s _, rfl, rfl, rfl⟩

/-- R167: the open-loop delay lies in the future by R6's bound, so its alarm is pending. -/
theorem skipArm_eq (s : State) : skipArm s = { s with
    start.powerSkipCount := toByte (s.start.powerSkipCount.toNat - 1)
    alarm := ⟨true, s.tau + s.cfg.SKIP_TIMEOUT.toNat⟩
    irq.cmpIrq := false } := by
  have hc := cfg_constraints s
  exact armRelative_future _ _ (by omega) (by omega)

/-- Settles O39: the count stays in its byte, and the alarm is the one `skipArm_eq` gives. -/
theorem skipArmCountsAndArms : Obligations.SkipArmCountsAndArms := by
  refine fun s => ⟨skipArm s, rfl, ?_, ?_⟩
  · exact toByte_toNat_of_le (Nat.sub_le _ 1)
  · rw [skipArm_eq]

/-! ## The demagnetization wait (R162, R165) -/

section DemagPoll
variable {s : State}

theorem demagPoll_of_elapsed (h : s.alarm.alarmPending = false) :
    demagPoll s = (.timeout, { s with env := (drawCmp s.env).2 }) := by
  simp [demagPoll, h]

theorem demagPoll_of_level (h : s.alarm.alarmPending = true)
    (hsample : (drawCmp s.env).1 = s.comm.preLevel) : demagPoll s = (.done,
      armAbsolute (degreesToTime s.timing.interval s.zc.zcT0 s.cfg.ZC_TIMEOUT_DEGREES)
        { s with env := (drawCmp s.env).2 }) := by
  simp [demagPoll, h, hsample]

theorem demagPoll_of_crossed (h : s.alarm.alarmPending = true)
    (hsample : (drawCmp s.env).1 ≠ s.comm.preLevel) :
    demagPoll s = (.wait, { s with env := (drawCmp s.env).2 }) := by
  simp [demagPoll, h, hsample]

end DemagPoll

/-- Settles O34: the three outcomes of `demagPoll`. -/
theorem demagPollOutcomes : Obligations.DemagPollOutcomes := by
  intro s
  rw [← degreesToTime_eq_ofNat]
  refine ⟨_, _, rfl, rfl, fun h => ?_, fun h hsample => ?_, fun h hsample => ?_⟩
  · rw [demagPoll_of_elapsed h]; rfl
  · rw [demagPoll_of_level h hsample]; rfl
  · rw [demagPoll_of_crossed h hsample]; rfl

/-- R165: opening the switch of one phase, or of none. -/
theorem demagTimeout_eq (s : State) : demagTimeout s = { s with
    wave.pwmSuppressed := true, wave.demagSkip := true, start.goodies := 0
    status.lastEvent := .demagTimeout
    sw := s.sw.setOpt s.comm.pwmPhase .off } := rfl

/-- Settles O37: the timeout opens the PWM phase's switch, whichever phase that is. -/
theorem demagTimeoutSuppressesPwm : Obligations.DemagTimeoutSuppressesPwm := by
  intro s
  rw [exec, execDemagto, demagTimeout_eq]
  congr 2
  rcases s.comm.pwmPhase with _ | _ | _ | _ <;> rfl

/-! ## The edge filter (R163, R166) -/

section EdgePoll
variable {s : State}

theorem edgePoll_of_elapsed (h : s.alarm.alarmPending = false) :
    edgePoll s = (.timeout, { s with env := (drawCmp s.env).2 }) := by
  simp [edgePoll, h]

theorem edgePoll_of_level (h : s.alarm.alarmPending = true)
    (hsample : (drawCmp s.env).1 = s.comm.preLevel) : edgePoll s = (.wait, { s with
      env := (drawCmp s.env).2
      zc.conf := toByte (min (s.zc.conf.toNat + 1) s.zc.width.toNat) }) := by
  simp [edgePoll, h, hsample]

theorem edgePoll_of_crossed (h : s.alarm.alarmPending = true)
    (hsample : (drawCmp s.env).1 ≠ s.comm.preLevel) :
    edgePoll s = (if toByte (s.zc.conf.toNat - 1) = 0 then .done else .wait, { s with
      env := (drawCmp s.env).2
      zc.conf := toByte (s.zc.conf.toNat - 1) }) := by
  simp [edgePoll, h, hsample]

end EdgePoll

/-- Everything an edge poll can change: the draw and the counter. -/
theorem edgePoll_frame (s : State) : (edgePoll s).2 = { s with
    zc.conf := (edgePoll s).2.zc.conf, env := (drawCmp s.env).2 } := by
  unfold edgePoll; dsimp only; split_ifs <;> rfl

/-- Settles O35: the three outcomes of `edgePoll`, and its frame. -/
theorem edgePollOutcomes : Obligations.EdgePollOutcomes := by
  intro s
  refine ⟨_, rfl, fun h => ?_, fun h hsample => ?_, fun h hsample => ?_, ?_⟩
  · rw [edgePoll_of_elapsed h]
    exact ⟨rfl, rfl⟩
  · rw [edgePoll_of_level h hsample]
    exact ⟨rfl, toByte_toNat_of_le (min_le_right _ _)⟩
  · rw [edgePoll_of_crossed h hsample]
    exact ⟨toByte_toNat_of_le (Nat.sub_le _ 1), apply_ite pollCode ..⟩
  · rw [setRes_zc, edgePoll_frame]; rfl

section ZcTimeout
variable {s : State}

theorem zcTimeout_of_crossing (hwindow : s.zc.zcWindow = .primary)
    (hconf : s.zc.conf.toNat < s.zc.width.toNat) : zcTimeout s = (.followup, openFollowup s) := by
  simp [zcTimeout, crossingInProgress, hwindow, hconf]

theorem zcTimeout_of_no_crossing
    (h : s.zc.zcWindow = .followup ∨ s.zc.width.toNat ≤ s.zc.conf.toNat) :
    zcTimeout s = (.final, finalTimeout s) := by
  obtain hwindow | hconf := h
  · simp [zcTimeout, crossingInProgress, hwindow]
  · simp [zcTimeout, crossingInProgress, hconf]

end ZcTimeout

/-- Settles O38: the two branches of `zcTimeout`. -/
theorem edgeTimeoutBranches : Obligations.EdgeTimeoutBranches := by
  intro s
  rw [← degreesToTime_now]
  refine ⟨fun hwindow hconf => ⟨_, rfl, ?_⟩,
    fun h => ⟨setRes 4 (finalTimeout s), ?_, ?_, ?_, rfl⟩⟩
  · rw [exec, execZcto, zcTimeout_of_crossing hwindow hconf]; rfl
  · rw [exec, execZcto, zcTimeout_of_no_crossing h]; rfl
  · by_cases hrunning : s.start.supState = .running <;> simp [finalTimeout, raise, hrunning]
  · exact toByte_toNat_of_le (b := 255) (min_le_right _ _)

/-! ## The feedback at the end of a step (R164, R169) -/

/-- Settles O36: the configured advance is in PREDICT's range by R6, so PREDICT gives the crossing
that CONFIRM arms for. -/
theorem feedbackAndConfirm : Obligations.FeedbackAndConfirm := by
  intro s
  have hadvance : s.cfg.ADVANCE_DEGREES.toNat ≤ 30 := by
    have hc := cfg_constraints s
    omega
  exact ⟨_, _, _, _, _, rfl, rfl, rfl, rfl, exec_predict_inRange hadvance, rfl, rfl⟩

/-! ## The sequencer's use of the engine (R168, R221) -/

section ExecStep
variable {s : State}

/-- R221: a micro-step that is enabled performs the arm of its sequencer state. -/
theorem exec_step_performed (h : stepHeld s = false) :
    exec .step s = .next (setRes 1 (sequencerStep s)) :=
  congrArg Host.Outcome.next (microStep_performed s h)

theorem stepHeld_of_elapsed (h : s.alarm.alarmPending = false) : stepHeld s = false := by
  simp [stepHeld, h]

theorem exec_step_idle (hpc : s.seq.pc = .idle) :
    exec .step s = .next (setRes 1 (restartControl s)) := by
  rw [exec_step_performed (by simp [stepHeld, hpc]), sequencerStep, hpc]

theorem exec_step_commutate (hpc : s.seq.pc = .commutate) :
    exec .step s = .next (setRes 1 (stepCommutate s)) := by
  rw [exec_step_performed (by simp [stepHeld, hpc]), sequencerStep, hpc]

theorem exec_step_evaluate (hpc : s.seq.pc = .evaluate) :
    exec .step s = .next (setRes 1 (supervisorEvaluate s)) := by
  rw [exec_step_performed (by simp [stepHeld, hpc]), sequencerStep, hpc]

theorem exec_step_stallDelay (hpc : s.seq.pc = .stallDelay) (h : s.alarm.alarmPending = false) :
    exec .step s = .next (setRes 1 (stepStallDelay s)) := by
  rw [exec_step_performed (stepHeld_of_elapsed h), sequencerStep, hpc]

/-- R168: a commutation leaves the open-loop count to the arming that follows it. -/
@[simp] theorem commutate_powerSkipCount (s : State) :
    (commutate s).start.powerSkipCount = s.start.powerSkipCount := by
  rw [commutate_frame]

theorem stepCommutate_detected (h : s.start.powerSkipCount = 0) :
    stepCommutate s = { zcArm (commutate s) with seq.pc := .demagWait } :=
  if_neg (by simpa using h)

theorem stepCommutate_openLoop (h : s.start.powerSkipCount ≠ 0) :
    stepCommutate s = { skipArm (commutate s) with seq.pc := .skipWait } :=
  if_pos (by simpa using h)

/-- R221: the last alarm of the stall delay restarts. -/
theorem stepStallDelay_last (h : s.start.stallCount = 1) :
    stepStallDelay s = restartControl { s with start.stallCount := s.start.stallCount - 1 } :=
  if_pos (sub_eq_zero.mpr h)

theorem stepStallDelay_more (h : s.start.stallCount ≠ 1) : stepStallDelay s =
    armRelative s.cfg.STALL_DELTA { s with start.stallCount := s.start.stallCount - 1 } :=
  if_neg (sub_ne_zero.mpr h)

end ExecStep

/-- Settles O54: the arm of each of the four states, by the count that chooses its operation. -/
theorem stepRunsTheStatesOperation : Obligations.StepRunsTheStatesOperation := by
  refine fun s => ⟨fun hpc => ⟨_, rfl, exec_step_idle hpc⟩, fun hpc => ?_,
    fun hpc => ⟨_, rfl, exec_step_evaluate hpc⟩, fun hpc helapsed hcount => ?_⟩
  · rw [exec_step_commutate hpc]
    by_cases hskip : s.start.powerSkipCount = 0
    · rw [stepCommutate_detected hskip, if_pos hskip, if_pos hskip]
      exact ⟨_, _, rfl, rfl, rfl⟩
    · rw [stepCommutate_openLoop hskip, if_neg hskip, if_neg hskip]
      exact ⟨_, _, rfl, rfl, rfl⟩
  · rw [exec_step_stallDelay hpc helapsed]
    have hcounted : (s.start.stallCount - 1).toNat = s.start.stallCount.toNat - 1 :=
      BitVec.toNat_sub_of_le hcount
    by_cases hlast : s.start.stallCount = 1
    · rw [stepStallDelay_last hlast, if_pos hlast]
      exact ⟨_, _, hcounted, rfl, rfl⟩
    · rw [stepStallDelay_more hlast, if_neg hlast]
      exact ⟨_, _, hcounted, rfl, rfl⟩

end Sys2Proof.Machine

/-! # Proofs of the family 44_duty_pwm.md -/

namespace Sys2Proof.Machine

/-! ## The plan of a recompute (R192, R193, R195) -/

section DutyPlan
variable {maxPower t : Nat} {double : Bool}

/-- R203: a zero throttle is planned off. -/
theorem dutyPlan_of_zero (hmax : 1 ≤ maxPower) (ht : t = 0) : dutyPlan maxPower double t =
    { on := 0, off := maxPower, mode := .off, full := false, power := false } := by
  have hoff : maxPower ≠ 0 := Nat.one_le_iff_ne_zero.mp hmax
  simp [dutyPlan, ht, hoff]

/-- R204: a throttle that reaches MAX_POWER is planned full. -/
theorem dutyPlan_of_full (h : maxPower ≤ t) : dutyPlan maxPower double t =
    { on := t, off := 0, mode := .full, full := true, power := true } := by
  simp [dutyPlan, h]

/-- R193, R195: any other throttle is planned as two durations, both doubled or neither. -/
theorem dutyPlan_of_partial (ht : t ≠ 0) (h : t < maxPower) {k : Nat}
    (hk : (if double then 2 else 1) = k) : dutyPlan maxPower double t =
    { on := k * t, off := k * (maxPower - t)
      mode := normalMode (k * t) (k * (maxPower - t)), full := false, power := true } := by
  have hoff : maxPower - t ≠ 0 := by omega
  subst hk
  cases double <;> simp [dutyPlan, not_le.mpr h, hoff, ht]

end DutyPlan

/-- R193: both durations must fit 8 bits for the short variant. -/
theorem normalMode_eq (on off : Nat) :
    normalMode on off = if on ≤ 255 ∧ off ≤ 255 then .normal else .long := by
  by_cases hon : on ≤ 255
  · by_cases hoff : off ≤ 255 <;> simp [normalMode, hon, hoff, not_lt.mpr, not_le.mp]
  · simp [normalMode, hon, not_le.mp hon]

/-- R193: the mode for two durations is one whose waveform the PWM handler runs. -/
theorem normalMode_running (on off : Nat) :
    normalMode on off = .normal ∨ normalMode on off = .long := by
  rw [normalMode_eq]
  split
  · exact .inl rfl
  · exact .inr rfl

/-! ## Writing the plan (R192) -/

section WritePlan
variable {p : DutyPlan} {s : State}

/-- The duty outputs of a plan, whatever its mode. -/
theorem writePlan_duty (p : DutyPlan) (s : State) : (writePlan p s).duty = { s.duty with
    onTimeC := ~~~(toWord16 p.on), offTimeC := ~~~(toWord16 p.off)
    pwmMode := p.mode, fullPowerFlag := p.full, powerOnFlag := p.power } := by
  rw [writePlan_frame]

theorem writePlan_of_off (h : p.mode = .off) :
    (writePlan p s).wave.pwmOut = false ∧
    (writePlan p s).sw = s.sw.setOpt s.comm.pwmPhase .off := by
  simp [writePlan, h, drivePwmPhase]

theorem writePlan_of_full (h : p.mode = .full) :
    (writePlan p s).wave.pwmOut = true ∧
    (writePlan p s).sw = (if s.wave.pwmEnabled && !s.wave.pwmSuppressed
      then s.sw.setOpt s.comm.pwmPhase (sideP s.cfg) else s.sw) := by
  unfold writePlan
  rw [h]
  dsimp only
  split <;> exact ⟨rfl, rfl⟩

/-- R192: NORMAL and LONG leave the waveform and the switches to the PWM handler. -/
theorem writePlan_of_running (h : p.mode = .normal ∨ p.mode = .long) :
    (writePlan p s).wave.pwmOut = s.wave.pwmOut ∧ (writePlan p s).sw = s.sw := by
  rcases h with h | h <;> simp [writePlan, h]

end WritePlan

/-! ## A recompute by the clamped throttle (R192 to R195) -/

section RecomputeDuty
variable {s : State}

/-- R192: the clamped throttle, by the comparison that tells signal loss. -/
theorem clampedThrottle_eq (s : State) : clampedThrottle s =
    min (min (if s.duty.rcTimeout = s.cfg.RC_TIMEOUT_CEIL then 0
              else s.duty.commandedDuty.toNat)
      s.timing.timingDutyLimit.toNat) s.duty.rateLimitedDuty.toNat := by
  simp [clampedThrottle, signalLost]

theorem clampedThrottle_le_ceiling (s : State) :
    clampedThrottle s ≤ s.duty.rateLimitedDuty.toNat :=
  min_le_right _ _

/-- R195: the factor of the startup doubling. -/
theorem startupFactor_eq (s : State) : (if startupDoubling s then 2 else 1) =
    (if s.cfg.STARTUP_PWM_DOUBLE = true ∧ s.start.supState = .starting then 2 else 1) := by
  simp [startupDoubling]

theorem one_le_maxPower (s : State) : 1 ≤ s.cfg.MAX_POWER.toNat := by
  have hc := cfg_constraints s
  omega

theorem recomputeDuty_cfg (s : State) : (recomputeDuty s).cfg = s.cfg := by
  simp [State.cfg]

/-- R192: the plan a recompute writes. -/
def recomputePlan (s : State) : DutyPlan :=
  dutyPlan s.cfg.MAX_POWER.toNat (startupDoubling s) (clampedThrottle s)

theorem recomputeDuty_eq_writePlan (s : State) : recomputeDuty s = writePlan (recomputePlan s)
    { s with duty.rateLimitedDuty := cappedCeiling (clampedThrottle s) s.duty.rateLimitedDuty } :=
  rfl

theorem recomputeDuty_rateLimitedDuty (s : State) : (recomputeDuty s).duty.rateLimitedDuty =
    cappedCeiling (clampedThrottle s) s.duty.rateLimitedDuty := by
  rw [recomputeDuty_eq_writePlan, writePlan_duty]

/-- What a recompute writes to the duty elements, beside the ceiling. -/
theorem recomputeDuty_duty (s : State) : (recomputeDuty s).duty = { s.duty with
    rateLimitedDuty := (recomputeDuty s).duty.rateLimitedDuty
    onTimeC := ~~~(toWord16 (recomputePlan s).on), offTimeC := ~~~(toWord16 (recomputePlan s).off)
    pwmMode := (recomputePlan s).mode
    fullPowerFlag := (recomputePlan s).full, powerOnFlag := (recomputePlan s).power } := by
  rw [recomputeDuty_eq_writePlan, writePlan_duty]

/-- R192, R203: a clamped throttle of 0 turns the waveform off and keeps the ceiling. -/
theorem recomputeDuty_of_zero (h : clampedThrottle s = 0) :
    (recomputeDuty s).duty = { s.duty with
      onTimeC := 0xFFFF, offTimeC := ~~~s.cfg.MAX_POWER, pwmMode := .off
      fullPowerFlag := false, powerOnFlag := false } ∧
    (recomputeDuty s).wave.pwmOut = false ∧
    (recomputeDuty s).sw = s.sw.setOpt s.comm.pwmPhase .off := by
  have hplan : recomputePlan s = _ := dutyPlan_of_zero (one_le_maxPower s) h
  refine ⟨?_, writePlan_of_off (congrArg DutyPlan.mode hplan)⟩
  rw [recomputeDuty_duty, recomputeDuty_rateLimitedDuty, hplan]
  simp [h, cappedCeiling, toWord16]

/-- R192, R204: a clamped throttle that reaches MAX_POWER drives the PWM phase continuously. -/
theorem recomputeDuty_of_full (h : s.cfg.MAX_POWER.toNat ≤ clampedThrottle s) :
    (recomputeDuty s).duty = { s.duty with
      rateLimitedDuty := (recomputeDuty s).duty.rateLimitedDuty
      onTimeC := ~~~(toWord16 (clampedThrottle s)), offTimeC := 0xFFFF, pwmMode := .full
      fullPowerFlag := true, powerOnFlag := true } ∧
    (recomputeDuty s).wave.pwmOut = true ∧
    (recomputeDuty s).sw = (if s.wave.pwmEnabled && !s.wave.pwmSuppressed
      then s.sw.setOpt s.comm.pwmPhase (sideP s.cfg) else s.sw) := by
  have hplan : recomputePlan s = _ := dutyPlan_of_full h
  have hoff : ~~~(toWord16 0) = 0xFFFF := by decide
  refine ⟨?_, writePlan_of_full (congrArg DutyPlan.mode hplan)⟩
  rw [← hoff, recomputeDuty_duty, hplan]

/-- R192, R193: any other throttle writes two durations and leaves the power stage alone. -/
theorem recomputeDuty_of_partial (h0 : clampedThrottle s ≠ 0)
    (hmax : clampedThrottle s < s.cfg.MAX_POWER.toNat) {k : Nat}
    (hk : (if startupDoubling s then 2 else 1) = k) :
    (recomputeDuty s).duty = { s.duty with
      rateLimitedDuty := (recomputeDuty s).duty.rateLimitedDuty
      onTimeC := ~~~(toWord16 (k * clampedThrottle s))
      offTimeC := ~~~(toWord16 (k * (s.cfg.MAX_POWER.toNat - clampedThrottle s)))
      pwmMode := normalMode (k * clampedThrottle s)
        (k * (s.cfg.MAX_POWER.toNat - clampedThrottle s))
      fullPowerFlag := false, powerOnFlag := true } ∧
    (recomputeDuty s).wave.pwmOut = s.wave.pwmOut ∧ (recomputeDuty s).sw = s.sw := by
  have hplan : recomputePlan s = _ := dutyPlan_of_partial h0 hmax hk
  refine ⟨?_, writePlan_of_running (p := recomputePlan s) ?_⟩
  · rw [recomputeDuty_duty, hplan]
  · rw [hplan]
    exact normalMode_running _ _

/-- R204: the full-power flag is written exactly when the clamped throttle reaches MAX_POWER. -/
theorem recomputeDuty_fullPowerFlag_eq_true_iff (s : State) :
    (recomputeDuty s).duty.fullPowerFlag = true ↔
      s.cfg.MAX_POWER.toNat ≤ clampedThrottle s := by
  constructor
  · intro hfull
    by_contra hlt
    by_cases h0 : clampedThrottle s = 0
    · obtain ⟨hduty, -⟩ := recomputeDuty_of_zero h0
      rw [hduty] at hfull
      cases hfull
    · obtain ⟨hduty, -⟩ := recomputeDuty_of_partial h0 (not_le.mp hlt) rfl
      rw [hduty] at hfull
      cases hfull
  · intro hfull
    obtain ⟨hduty, -⟩ := recomputeDuty_of_full hfull
    rw [hduty]

/-- R195: twice a number up to MAX_POWER still fits 16 bits, so its complement holds it. -/
theorem not_not_toWord16_toNat {k n : Nat} (hk : k ≤ 2) (hn : n ≤ s.cfg.MAX_POWER.toNat) :
    (~~~(~~~(toWord16 (k * n)))).toNat = k * n := by
  have hc := cfg_constraints s
  have hfits : k * n ≤ 2 * s.cfg.MAX_POWER.toNat := Nat.mul_le_mul hk hn
  rw [BitVec.not_not, toWord16_toNat]
  exact Nat.mod_eq_of_lt (by omega)

end RecomputeDuty

/-- Settles O41: the three cases of a recompute by the clamped throttle. -/
theorem recomputeDutyCases : Obligations.RecomputeDutyCases := by
  refine fun s => ⟨recomputeDuty s, rfl, ?_, recomputeDuty_frame s⟩
  rw [← clampedThrottle_eq, ← startupFactor_eq]
  intro T k on off
  refine ⟨recomputeDuty_of_zero, fun h0 => ?_, recomputeDuty_of_full, fun h0 hmax => ?_⟩
  · rw [recomputeDuty_rateLimitedDuty]
    exact cappedCeiling_toNat _ _ h0
  · obtain ⟨hduty, hwave, hsw⟩ := recomputeDuty_of_partial h0 hmax rfl
    have hk : k ≤ 2 := by dsimp only [k]; split <;> decide
    rw [← normalMode_eq, hduty]
    exact ⟨rfl, not_not_toWord16_toNat hk hmax.le, not_not_toWord16_toNat hk (Nat.sub_le _ _),
      hwave, hsw⟩

/-- Settles O43: the clamped throttle is 0, or reaches MAX_POWER, as its three bounds say. -/
theorem zeroAndFullThrottle : Obligations.ZeroAndFullThrottle := by
  refine fun s => ⟨recomputeDuty s, rfl, fun hzero => ?_, fun hlimit => ?_, fun hfull => ?_⟩
  · have h0 : clampedThrottle s = 0 := by
      rw [clampedThrottle_eq]
      rcases hzero with h | h <;> simp [h]
    obtain ⟨hduty, hwave, -⟩ := recomputeDuty_of_zero h0
    rw [hduty]
    exact ⟨rfl, rfl, rfl, rfl, hwave⟩
  · have hpos := one_le_maxPower s
    rw [recomputeDuty_fullPowerFlag_eq_true_iff, clampedThrottle_eq]
    by_cases hlost : s.duty.rcTimeout = s.cfg.RC_TIMEOUT_CEIL
    · rw [if_pos hlost]; bv_omega
    · rw [if_neg hlost]; bv_omega
  · obtain ⟨hduty, hwave, -⟩ :=
      recomputeDuty_of_full ((recomputeDuty_fullPowerFlag_eq_true_iff s).mp hfull)
    rw [hduty]
    exact ⟨rfl, hwave⟩

/-! ## A recompute is idempotent (R202) -/

theorem Switches.setOpt_setOpt (w : Switches) (p : Option Phase) (v : SwState) :
    (w.setOpt p v).setOpt p v = w.setOpt p v := by
  refine Switches.ext_get fun q => ?_
  by_cases h : p = some q
  · simp [h]
  · simp [h]

/-- Writing a plan again writes the same values. -/
theorem writePlan_writePlan (p : DutyPlan) (s : State) :
    writePlan p (writePlan p s) = writePlan p s := by
  rcases p with ⟨on, off, mode, full, power⟩
  cases mode with
  | off => simp [writePlan, drivePwmPhase, Switches.setOpt_setOpt]
  | full =>
    by_cases h : (s.wave.pwmEnabled && !s.wave.pwmSuppressed) = true
    · simp [writePlan, drivePwmPhase, Switches.setOpt_setOpt, h]
    · simp [writePlan, h]
  | normal => rfl
  | long => rfl

/-- R194: the cap is never below the throttle it came from, so the throttle stays within it. -/
theorem le_cappedCeiling {t : Nat} {ceiling : Word16} (h : t ≤ ceiling.toNat) :
    t ≤ (cappedCeiling t ceiling).toNat := by
  by_cases h0 : t = 0
  · omega
  · rw [cappedCeiling_toNat t ceiling h0]
    omega

theorem cappedCeiling_cappedCeiling (t : Nat) (ceiling : Word16) :
    cappedCeiling t (cappedCeiling t ceiling) = cappedCeiling t ceiling := by
  by_cases h0 : t = 0
  · simp [cappedCeiling, h0]
  · refine BitVec.eq_of_toNat_eq ?_
    rw [cappedCeiling_toNat t _ h0, cappedCeiling_toNat t _ h0, min_assoc, min_self]

/-- R202: the lowered ceiling does not clamp the throttle any further. -/
theorem clampedThrottle_recomputeDuty (s : State) :
    clampedThrottle (recomputeDuty s) = clampedThrottle s := by
  have hcap := le_cappedCeiling (clampedThrottle_le_ceiling s)
  have hlowered := cappedCeiling_le (clampedThrottle s) s.duty.rateLimitedDuty
  rw [← recomputeDuty_rateLimitedDuty] at hcap hlowered
  rw [clampedThrottle_eq s] at hcap ⊢
  rw [clampedThrottle_eq, recomputeDuty_rcTimeout, recomputeDuty_commandedDuty,
    recomputeDuty_timing, recomputeDuty_cfg]
  omega

theorem recomputePlan_recomputeDuty (s : State) :
    recomputePlan (recomputeDuty s) = recomputePlan s := by
  rw [recomputePlan, clampedThrottle_recomputeDuty, startupDoubling, recomputeDuty_cfg,
    recomputeDuty_start]
  rfl

/-- R202: with the throttle, the plan and the ceiling as they were, the plan is written again. -/
theorem recomputeDuty_recomputeDuty (s : State) :
    recomputeDuty (recomputeDuty s) = recomputeDuty s := by
  have hceiling : cappedCeiling (clampedThrottle s) (recomputeDuty s).duty.rateLimitedDuty =
      (recomputeDuty s).duty.rateLimitedDuty := by
    rw [recomputeDuty_rateLimitedDuty, cappedCeiling_cappedCeiling]
  rw [recomputeDuty_eq_writePlan (recomputeDuty s), recomputePlan_recomputeDuty,
    clampedThrottle_recomputeDuty, hceiling]
  exact writePlan_writePlan _ _

/-- Settles O42: a recompute is a fixed point of itself. -/
theorem recomputeDutyIsIdempotent : Obligations.RecomputeDutyIsIdempotent :=
  fun s => ⟨recomputeDuty s, rfl, congrArg Host.Outcome.next (recomputeDuty_recomputeDuty s)⟩

/-! ## Throttle commands (R190) -/

section Throttle
variable {s : State}

theorem setThrottleCommand_of_tracking (v : Word16) (h : s.duty.dutyTracking = true) :
    setThrottleCommand v s = acceptThrottle v s :=
  if_pos h

theorem setThrottleCommand_of_not_tracking (v : Word16) (h : s.duty.dutyTracking = false) :
    setThrottleCommand v s = countSignalLoss s := by
  simp [setThrottleCommand, h]

theorem acceptThrottle_commandedDuty_toNat (v : Word16) (s : State) :
    (acceptThrottle v s).duty.commandedDuty.toNat =
      min v.toNat (s.cfg.POWER_RANGE.toNat - 1) := by
  rw [acceptThrottle, recomputeDuty_commandedDuty, toWord16_toNat]
  exact Nat.mod_eq_of_lt ((min_le_left _ _).trans_lt v.isLt)

/-- R190: the watchdog after one more command without tracking. -/
def countedTimeout (s : State) : Byte :=
  if s.duty.rcTimeout.toNat < s.cfg.RC_TIMEOUT_CEIL.toNat then s.duty.rcTimeout + 1
  else s.duty.rcTimeout

/-- A watchdog in its range counts up to its ceiling. -/
theorem countedTimeout_toNat (h : s.duty.rcTimeout.toNat ≤ s.cfg.RC_TIMEOUT_CEIL.toNat) :
    (countedTimeout s).toNat =
      min (s.duty.rcTimeout.toNat + 1) s.cfg.RC_TIMEOUT_CEIL.toNat := by
  unfold countedTimeout
  split
  · bv_omega
  · omega

/-- R190: the loss is reported when the counter stands at its ceiling, and nothing else changes. -/
theorem countSignalLoss_eq (s : State) : countSignalLoss s = { s with
    duty.rcTimeout := countedTimeout s
    status.lastEvent := if countedTimeout s = s.cfg.RC_TIMEOUT_CEIL then .signalLoss
      else s.status.lastEvent } := by
  by_cases h : countedTimeout s = s.cfg.RC_TIMEOUT_CEIL
  · rw [if_pos h]; exact if_pos h
  · rw [if_neg h]; exact if_neg h

end Throttle

/-- Settles O40: the two branches of `setThrottleCommand`. -/
theorem throttleCommand : Obligations.ThrottleCommand := by
  refine fun s v => ⟨fun htracking => ⟨acceptThrottle v s, rfl, ?_, ?_, ?_, ?_⟩,
    fun htracking hrange => ⟨countSignalLoss s, ?_, ?_⟩⟩
  · rw [exec, execSetthr, setThrottleCommand_of_tracking v htracking]
  · exact acceptThrottle_commandedDuty_toNat v s
  · rw [acceptThrottle, recomputeDuty_rcTimeout]
  · rw [acceptThrottle, recomputeDuty_beaconCount]
  · rw [exec, execSetthr, setThrottleCommand_of_not_tracking v htracking]
  · rw [countSignalLoss_eq]
    exact ⟨countedTimeout_toNat hrange, rfl, rfl⟩

/-! ## The PWM handler (R200, R257) -/

section PwmHandler
variable {s : State} {d : DutyState} {w : WaveState}

theorem pwmHandler_of_disabled (h : s.wave.pwmEnabled = false) : pwmHandler s = s := by
  simp [pwmHandler, h]

theorem pwmHandler_of_enabled (h : s.wave.pwmEnabled = true) : pwmHandler s = { s with
    wave := nextWave s.duty s.wave
    sw := s.sw.setOpt s.comm.pwmPhase
      (waveDrive { s with wave := nextWave s.duty s.wave }) } := by
  simp [pwmHandler, h, drivePwmPhase]

theorem nextWave_of_off (h : d.pwmMode = .off) :
    nextWave d w = { w with pwmOut := false } := by
  rw [nextWave, h]

theorem nextWave_of_full (h : d.pwmMode = .full) :
    nextWave d w = { w with pwmOut := true } := by
  rw [nextWave, h]

theorem nextWave_of_running (h : d.pwmMode = .normal ∨ d.pwmMode = .long) :
    nextWave d w = advanceWave d w := by
  rcases h with h | h <;> rw [nextWave, h]

theorem advanceWave_of_extension (h : w.pwmExt ≠ 0) :
    advanceWave d w = { w with pwmExt := w.pwmExt - 1 } :=
  if_pos (by simpa using h)

/-- R200: the on phase ends and the off phase begins. -/
theorem advanceWave_of_on (hext : w.pwmExt = 0) (hphase : w.wavePhase = true) :
    advanceWave d w = { w with
      wavePhase := false, pwmOut := false
      pwmReload := d.offTimeC.extractLsb' 0 8, pwmExt := (~~~d.offTimeC).extractLsb' 8 8 } := by
  simp [advanceWave, hext, hphase]

/-- R200: the off phase ends and the on phase begins. -/
theorem advanceWave_of_off (hext : w.pwmExt = 0) (hphase : w.wavePhase = false) :
    advanceWave d w = { w with
      wavePhase := true, pwmOut := true
      pwmReload := d.onTimeC.extractLsb' 0 8, pwmExt := (~~~d.onTimeC).extractLsb' 8 8 } := by
  simp [advanceWave, hext, hphase]

/-- The handler reads the suppression the waveform's advance leaves alone. -/
theorem waveDrive_nextWave (s : State) : waveDrive { s with wave := nextWave s.duty s.wave } =
    if (nextWave s.duty s.wave).pwmOut && !s.wave.pwmSuppressed && s.duty.powerOnFlag
    then sideP s.cfg else .off := by
  obtain ⟨-, hsuppressed, -⟩ := nextWave_frame s.duty s.wave
  simp only [waveDrive, hsuppressed, State.cfg]

/-- R253: with its request pending, the PWM handler is the one TAKEIRQ runs. -/
theorem exec_takeirq_pwm (h : s.irq.pwmIrq = true) :
    exec .takeirq s = .next (setRes 1 (pwmHandler { s with irq.pwmIrq := false })) := by
  simp [exec, execTakeirq, takeIrq, h, takePwm]

theorem exec_takeirq_of_disabled (h : s.irq.pwmIrq = true) (hoff : s.wave.pwmEnabled = false) :
    exec .takeirq s = .next { s with irq.pwmIrq := false, status.res := 1 } := by
  rw [exec_takeirq_pwm h, pwmHandler_of_disabled (s := { s with irq.pwmIrq := false }) hoff]
  rfl

/-- R200: an enabled handler advances the waveform and writes the PWM phase's switch from it. -/
theorem exec_takeirq_of_enabled (h : s.irq.pwmIrq = true) (hon : s.wave.pwmEnabled = true) :
    exec .takeirq s = .next { s with
      irq.pwmIrq := false
      wave := nextWave s.duty s.wave
      sw := s.sw.setOpt s.comm.pwmPhase
        (if (nextWave s.duty s.wave).pwmOut && !s.wave.pwmSuppressed && s.duty.powerOnFlag
          then sideP s.cfg else .off)
      status.res := 1 } := by
  rw [exec_takeirq_pwm h, pwmHandler_of_enabled (s := { s with irq.pwmIrq := false }) hon,
    waveDrive_nextWave]
  rfl

end PwmHandler

/-- Settles O45: PWMOVF requests the handler, and the handler advances the waveform by its mode. -/
theorem pwmHandlerAdvancesTheWaveform : Obligations.PwmHandlerAdvancesTheWaveform := by
  refine fun s => ⟨rfl, fun hirq => ?_⟩
  cases henabled : s.wave.pwmEnabled with
  | false => exact ⟨_, exec_takeirq_of_disabled hirq henabled, fun _ => rfl, nofun, rfl⟩
  | true =>
    refine ⟨_, exec_takeirq_of_enabled hirq henabled, nofun,
      fun _ => ⟨nextWave_of_off, nextWave_of_full, fun hmode => ?_, rfl⟩, rfl⟩
    have hwave := nextWave_of_running (w := s.wave) hmode
    exact ⟨fun hext => hwave.trans (advanceWave_of_extension hext),
      fun hext hphase => hwave.trans (advanceWave_of_on hext hphase),
      fun hext hphase => hwave.trans (advanceWave_of_off hext hphase)⟩

end Sys2Proof.Machine

/-! # Proofs of the family 45_supervisor.md -/

namespace Sys2Proof.Machine

/-! ## Starting (R223, R224) -/

/-- R224: the state that STARTFR recomputes the duty of. -/
def startSetup (s : State) : State := { s with
  start := ⟨0, 0, 0, 0, s.cfg.POWER_SKIP_INIT, 0, .starting⟩
  ind.senseEnabled := true, ind.disarmedInd := false
  duty.rateLimitedDuty := s.cfg.PWR_MIN_START, duty.dutyTracking := true
  wave.pwmEnabled := true }

theorem startFromRunning_eq (s : State) :
    startFromRunning s = { recomputeDuty (startSetup s) with seq := ⟨.commutate, 0⟩ } := rfl

/-- Settles O49: `startFromRunning_eq`, with the recompute named as its own operation. -/
theorem startFromRunningEntersTheLoop : Obligations.StartFromRunningEntersTheLoop :=
  fun s => ⟨_, _, rfl, rfl, startFromRunning_eq s⟩

@[simp] theorem startFromRunning_seq (s : State) :
    (startFromRunning s).seq = ⟨.commutate, 0⟩ := rfl

@[simp] theorem startFromRunning_supState (s : State) :
    (startFromRunning s).start.supState = .starting := by
  simp [startFromRunning_eq, startSetup]

@[simp] theorem startFromRunning_commandedDuty (s : State) :
    (startFromRunning s).duty.commandedDuty = s.duty.commandedDuty := by
  simp [startFromRunning_eq, startSetup]

@[simp] theorem startFromRunning_rcTimeout (s : State) :
    (startFromRunning s).duty.rcTimeout = s.duty.rcTimeout := by
  simp [startFromRunning_eq, startSetup]

theorem clampedThrottle_of_zero_command {s : State} (h : s.duty.commandedDuty = 0) :
    clampedThrottle s = 0 := by
  simp [clampedThrottle_eq, h]

/-- R224, R203: with a zero command the start leaves the motor unpowered. -/
theorem startFromRunning_unpowered {s : State} (h : s.duty.commandedDuty = 0) :
    (startFromRunning s).duty.powerOnFlag = false ∧
    (startFromRunning s).sw = s.sw.setOpt s.comm.pwmPhase .off := by
  obtain ⟨hduty, -, hsw⟩ := recomputeDuty_of_zero (s := startSetup s)
    (clampedThrottle_of_zero_command h)
  exact ⟨congrArg DutyState.powerOnFlag hduty, hsw⟩

/-- R223: everything off, disarmed, Idle, as one update. -/
theorem disarm_eq (s : State) : disarm s = { s with
    sw := ⟨.off, .off, .off⟩, comm := ⟨.allOff, none, none, none, false⟩
    duty.dutyTracking := false, wave.pwmEnabled := false, duty.commandedDuty := 0
    ind.disarmedInd := true, ind.faultInd := false, ind.senseEnabled := false
    start.supState := .idle, status.lastEvent := .restart } := rfl

/-- Settles O48: RESTART starts from the disarmed state, whose command is 0. -/
theorem restartControlStartsUnpowered : Obligations.RestartControlStartsUnpowered := by
  intro s
  rw [← disarm_eq]
  obtain ⟨hpower, hsw⟩ := startFromRunning_unpowered (s := disarm s) rfl
  refine ⟨startFromRunning (disarm s), rfl, rfl, startFromRunning_supState _, rfl, ?_,
    startFromRunning_commandedDuty _, hpower, ?_, hsw, ?_⟩
  · simp [disarm_eq]
  · simp [disarm_eq]
  · simp [disarm_eq]

/-! ## Failing (R227) -/

theorem startFailed_eq (s : State) : startFailed s = { s with
    sw := ⟨.off, .off, .off⟩, comm := ⟨.allOff, none, none, none, false⟩
    wave.pwmEnabled := false, duty.dutyTracking := false, ind.senseEnabled := false
    start.supState := .failed, status.lastEvent := .startFailed, seq.pc := .failed } := rfl

/-- Settles O52: FAILED is `startFailed`, whose one update is R227's. -/
theorem startFailedTurnsEverythingOff : Obligations.StartFailedTurnsEverythingOff :=
  fun s => congrArg Host.Outcome.next (startFailed_eq s)

/-! ## The evaluation (R225, R226) -/

section Evaluate
variable {s : State}

/-- R225(1): R6 bounds the delay between two stall alarms, so the first one is pending. -/
theorem enterStall_eq (s : State) : enterStall s = { s with
    start.supState := .stalled, start.stallCount := s.cfg.STALL_REPEATS
    alarm := ⟨true, s.tau + s.cfg.STALL_DELTA.toNat⟩, irq.cmpIrq := false
    status.lastEvent := .stall, seq.pc := .stallDelay } := by
  have hc := cfg_constraints s
  rw [enterStall, armRelative_future _ _ (by omega) (by omega)]
  rfl

theorem exec_eval (s : State) : exec .eval s = .next (supervisorEvaluate s) := rfl

theorem supervisorEvaluate_of_stall (hoff : s.duty.powerOnFlag = false)
    (hnone : s.start.goodies = 0) : supervisorEvaluate s = enterStall s :=
  if_pos ⟨hoff, hnone⟩

/-- R226: R6 asks for at least one goodie, so enough goodies are never a stall. -/
theorem supervisorEvaluate_of_enough
    (henough : s.cfg.ENOUGH_GOODIES.toNat ≤ s.start.goodies.toNat) :
    supervisorEvaluate s = runningRamp s := by
  have hsome : s.start.goodies ≠ 0 := by
    have hc := cfg_constraints s
    intro hnone
    have hzero : s.start.goodies.toNat = 0 := congrArg BitVec.toNat hnone
    omega
  rw [supervisorEvaluate, if_neg (fun h => hsome h.2), if_pos henough]

/-- R225(3), (4): neither stalled nor with enough goodies, the ceiling decides. -/
theorem supervisorEvaluate_of_few (hgo : s.duty.powerOnFlag = true ∨ s.start.goodies ≠ 0)
    (hfew : s.start.goodies.toNat < s.cfg.ENOUGH_GOODIES.toNat) :
    supervisorEvaluate s = if s.duty.rateLimitedDuty = 0
      then startFromRunning (raise .powerCeilingZero s) else startingBranch s := by
  have hstall : ¬(s.duty.powerOnFlag = false ∧ s.start.goodies = 0) := by
    rintro ⟨hoff, hnone⟩
    simp [hoff, hnone] at hgo
  rw [supervisorEvaluate, if_neg hstall, if_neg (not_le.mpr hfew)]

/-- R225(4): below ENOUGH_GOODIES the count of goodies does not saturate. -/
theorem countStart_of_few (hfew : s.start.goodies.toNat < s.cfg.ENOUGH_GOODIES.toNat) :
    countStart s = { s with
      start.goodies := s.start.goodies + 1
      start.startModulate := s.start.startModulate + s.cfg.START_MOD_INC
      start.startFail := s.start.startFail + s.cfg.START_FAIL_INC } := by
  have hgoodies : toByte (min (s.start.goodies.toNat + 1) 255) = s.start.goodies + 1 := by
    have hbyte := s.cfg.ENOUGH_GOODIES.isLt
    apply BitVec.eq_of_toNat_eq
    rw [toByte_toNat, min_eq_left (by omega), BitVec.toNat_add]
    rfl
  rw [countStart, hgoodies]

theorem startingBranch_of_wrap (hmod : (countStart s).start.startModulate = 0)
    (hfail : (countStart s).start.startFail = 0) :
    startingBranch s = startFailed (countStart s) :=
  if_pos ⟨hmod, hfail⟩

theorem startingBranch_of_counting
    (h : (countStart s).start.startModulate ≠ 0 ∨ (countStart s).start.startFail ≠ 0) :
    startingBranch s = startingRamp (countStart s) :=
  if_neg (not_and_or.mpr h)

/-- R225(4): the starting cap as a number. -/
theorem startingCap_toNat (c : Config) (m : Byte) : (startingCap c m).toNat =
    if m.toNat < c.START_MOD_LIMIT.toNat then c.PWR_MAX_START.toNat
    else c.PWR_COOL_START.toNat :=
  apply_ite BitVec.toNat ..

end Evaluate

/-- Settles O50: the branch each condition of R225 chooses, and the state it writes. -/
theorem evaluationBranches : Obligations.EvaluationBranches := by
  refine fun s => ⟨fun hoff hnone => ?_, fun henough => ?_, fun hgo hfew =>
    ⟨fun hzero => ?_, fun hceiling => ?_⟩⟩
  · rw [exec_eval, supervisorEvaluate_of_stall hoff hnone, enterStall_eq]
  · rw [exec_eval, supervisorEvaluate_of_enough henough]
    exact ⟨_, rfl, rfl⟩
  · rw [exec_eval, supervisorEvaluate_of_few hgo hfew, if_pos hzero]
    rfl
  · rw [exec_eval, supervisorEvaluate_of_few hgo hfew, if_neg hceiling,
      ← countStart_of_few hfew]
    refine ⟨fun hmod hfail => ?_, fun hcount => ?_⟩
    · rw [startingBranch_of_wrap hmod hfail]
      rfl
    · rw [startingBranch_of_counting hcount, ← startingCap_toNat]
      exact ⟨_, rfl, rfl⟩

/-- Settles O51: R225's branch (2) by itself, and its branch (4) at a joint wrap. -/
theorem evaluationLaws : Obligations.EvaluationLaws := by
  refine fun s => ⟨_, rfl, fun henough => ?_, fun hfew hceiling hgo hmod hfail => ?_⟩
  · rw [supervisorEvaluate_of_enough henough]
    simp [runningRamp]
  · rw [supervisorEvaluate_of_few hgo hfew, if_neg hceiling, startingBranch_of_wrap hmod hfail]
    exact ⟨rfl, rfl⟩

/-! ## The sequencer in a wait and in FAILED (R221, R222, R228) -/

section ExecStep
variable {s : State}

theorem exec_step_held (h : stepHeld s = true) : exec .step s = .next (setRes 0 s) :=
  congrArg Host.Outcome.next (microStep_held s h)

theorem stepHeld_of_pending (h : s.alarm.alarmPending = true)
    (hpc : s.seq.pc = .skipWait ∨ s.seq.pc = .commWait ∨ s.seq.pc = .stallDelay) :
    stepHeld s = true := by
  rcases hpc with hpc | hpc | hpc <;> simp [stepHeld, h, hpc]

theorem exec_step_skipWait (hpc : s.seq.pc = .skipWait) (h : s.alarm.alarmPending = false) :
    exec .step s = .next (setRes 1 (stepSkipWait s)) := by
  rw [exec_step_performed (stepHeld_of_elapsed h), sequencerStep, hpc]

theorem exec_step_commWait (hpc : s.seq.pc = .commWait) (h : s.alarm.alarmPending = false) :
    exec .step s = .next (setRes 1 (stepDone s)) := by
  rw [exec_step_performed (stepHeld_of_elapsed h), sequencerStep, hpc]

theorem exec_step_demagWait (hpc : s.seq.pc = .demagWait) :
    exec .step s = .next (setRes 1 (stepDemagWait s)) := by
  rw [exec_step_performed (by simp [stepHeld, hpc]), sequencerStep, hpc]

theorem exec_step_edgeFilter (hpc : s.seq.pc = .edgeFilter) :
    exec .step s = .next (setRes 1 (stepEdgeFilter s)) := by
  rw [exec_step_performed (by simp [stepHeld, hpc]), sequencerStep, hpc]

theorem exec_step_failed (hpc : s.seq.pc = .failed) :
    exec .step s = .next (setRes 1 (stepFailed s)) := by
  rw [exec_step_performed (by simp [stepHeld, hpc]), sequencerStep, hpc]

end ExecStep

/-- R222: the cycle's last step wraps to step 0, as the sum in `Fin 6` does. -/
theorem stepDone_eq_atStepEnd (s : State) : stepDone s = atStepEnd s := by
  rcases hk : s.seq with ⟨pc, k⟩
  fin_cases k <;> simp [stepDone, atStepEnd, nextStepInCycle, hk]

/-- Settles O53: STEP toggles the indicator, FAILED enters the state again, and every other
operation leaves the sequencer alone (O57). -/
theorem failedIsTerminal : Obligations.FailedIsTerminal := by
  refine fun s hpc => ⟨exec_step_failed hpc, fun i hreset hrestart hstartfr heval => ?_⟩
  by_cases hstep : i = .step
  · subst hstep
    exact ⟨_, exec_step_failed hpc, hpc⟩
  by_cases hfailed : i = .failed
  · subst hfailed
    exact ⟨_, rfl, rfl⟩
  obtain ⟨t, ht, hseq⟩ :=
    portOperationsKeepTheSequencer i s hstep hrestart hstartfr heval hfailed hreset
  exact ⟨t, ht, by rw [hseq, hpc]⟩

/-- Settles O55: a pending alarm holds the step, an elapsed one ends it. -/
theorem stepInAWait : Obligations.StepInAWait := by
  refine fun s => ⟨fun hpending hpc => exec_step_held (stepHeld_of_pending hpending hpc),
    fun helapsed hpc => ⟨_, rfl, ?_⟩, fun helapsed hpc => ?_⟩
  · rw [exec_step_skipWait hpc helapsed, stepSkipWait, stepDone_eq_atStepEnd]
    rfl
  · rw [exec_step_commWait hpc helapsed, stepDone_eq_atStepEnd]
    rfl

/-! ## The sequencer's polls (R162, R163, R166, R221) -/

/-- R162, R163: `res` tells the outcomes of a poll apart. -/
theorem pollCode_injective : Function.Injective pollCode := by
  intro p q
  cases p <;> cases q <;> decide

/-- R166: `res` tells the outcomes of an edge timeout apart. -/
theorem zcOutcomeCode_injective : Function.Injective zcOutcomeCode := by
  intro p q
  cases p <;> cases q <;> decide

/-! The micro-step's own result overwrites the one its poll left. -/

theorem setRes_eq_overwrite (s : State) (v w : Time) :
    setRes w s = { setRes v s with status.res := w } := rfl

theorem setRes_pc_eq_overwrite (s : State) (v w : Time) (p : SeqPc) :
    setRes w { s with seq.pc := p } = { setRes v s with seq.pc := p, status.res := w } := rfl

theorem setRes_atStepEnd_eq_overwrite (s : State) (v w : Time) :
    setRes w (atStepEnd s) = { atStepEnd (setRes v s) with status.res := w } := rfl

/-- R165: the timeout takes no time. -/
theorem now_demagTimeout (s : State) : now (demagTimeout s) = now s := rfl

theorem armAbsolute_setRes (s : State) (v T : Time) :
    armAbsolute T (setRes v s) = setRes v (armAbsolute T s) := rfl

/-- R164: confirming does not read the poll's outcome in `res`. -/
theorem confirm_setRes (s : State) (v : Time) : confirm (setRes v s) = setRes v (confirm s) := by
  simp only [confirm, now_setRes, feedback_setRes, setRes_timing, State.cfg, setRes_config,
    armAbsolute_setRes]

theorem exec_zcto (s : State) :
    exec .zcto s = .next (setRes (zcOutcomeCode (zcTimeout s).1) (zcTimeout s).2) := rfl

section Polls
variable {s : State}

theorem stepDemagWait_of_wait (h : (demagPoll s).1 = .wait) :
    stepDemagWait s = (demagPoll s).2 := by
  rw [stepDemagWait, h]

theorem stepDemagWait_of_done (h : (demagPoll s).1 = .done) :
    stepDemagWait s = { (demagPoll s).2 with seq.pc := .edgeFilter } := by
  rw [stepDemagWait, h]

theorem stepDemagWait_of_timeout (h : (demagPoll s).1 = .timeout) : stepDemagWait s =
    stepDone (feedback (now (demagPoll s).2) (demagTimeout (demagPoll s).2)) := by
  rw [stepDemagWait, h]

theorem stepEdgeFilter_of_wait (h : (edgePoll s).1 = .wait) :
    stepEdgeFilter s = (edgePoll s).2 := by
  rw [stepEdgeFilter, h]

theorem stepEdgeFilter_of_done (h : (edgePoll s).1 = .done) :
    stepEdgeFilter s = { confirm (edgePoll s).2 with seq.pc := .commWait } := by
  rw [stepEdgeFilter, h]

theorem stepEdgeFilter_of_timeout (h : (edgePoll s).1 = .timeout) :
    stepEdgeFilter s = stepEdgeTimeout (edgePoll s).2 := by
  rw [stepEdgeFilter, h]

theorem stepEdgeTimeout_of_followup (h : (zcTimeout s).1 = .followup) :
    stepEdgeTimeout s = (zcTimeout s).2 := by
  rw [stepEdgeTimeout, h]

theorem stepEdgeTimeout_of_final (h : (zcTimeout s).1 = .final) :
    stepEdgeTimeout s = stepDone (feedback (now (zcTimeout s).2) (zcTimeout s).2) := by
  rw [stepEdgeTimeout, h]

end Polls

/-- Settles O56: the outcome of each poll is the one its operation leaves in `res`, and what follows
the poll does not read `res`. -/
theorem stepPollsOnce : Obligations.StepPollsOnce := by
  refine fun s => ⟨fun hpc => ?_, fun hpc => ?_⟩
  · rw [exec_step_demagWait hpc]
    refine ⟨_, rfl, fun hres => ?_, fun hres => ?_, fun hres => ⟨_, _, rfl, rfl, ?_⟩⟩
    · rw [stepDemagWait_of_wait (pollCode_injective hres), setRes_eq_overwrite]
    · rw [stepDemagWait_of_done (pollCode_injective hres), setRes_pc_eq_overwrite]
    · rw [stepDemagWait_of_timeout (pollCode_injective hres), stepDone_eq_atStepEnd,
        demagTimeout_setRes, now_setRes, now_demagTimeout, feedback_setRes,
        setRes_atStepEnd_eq_overwrite]
  · rw [exec_step_edgeFilter hpc]
    refine ⟨_, rfl, fun hres => ?_, fun hres => ⟨_, rfl, ?_⟩, fun hres => ?_⟩
    · rw [stepEdgeFilter_of_wait (pollCode_injective hres), setRes_eq_overwrite]
    · rw [stepEdgeFilter_of_done (pollCode_injective hres), confirm_setRes,
        setRes_pc_eq_overwrite]
    · rw [stepEdgeFilter_of_timeout (pollCode_injective hres), exec_zcto, zcTimeout_setRes]
      refine ⟨_, rfl, fun houtcome => ?_, fun houtcome => ⟨_, rfl, ?_⟩⟩
      · rw [stepEdgeTimeout_of_followup (zcOutcomeCode_injective houtcome), setRes_setRes,
          setRes_eq_overwrite]
      · rw [stepEdgeTimeout_of_final (zcOutcomeCode_injective houtcome), stepDone_eq_atStepEnd,
          setRes_setRes, now_setRes, feedback_setRes, setRes_atStepEnd_eq_overwrite]

end Sys2Proof.Machine

/-! # Proofs of the family 60_exceptions.md -/

namespace Sys2Proof.Machine

/-! ## Which interrupt is taken (R253, R254) -/

section TakeIrq
variable {s : State}

theorem exec_takeirq_cmp (hpwm : s.irq.pwmIrq = false) (hcmp : s.irq.cmpIrq = true) :
    exec .takeirq s = .next (setRes 1 (takeCmp s)) := by
  simp [exec, execTakeirq, takeIrq, hpwm, hcmp]

theorem exec_takeirq_ovf (hpwm : s.irq.pwmIrq = false) (hcmp : s.irq.cmpIrq = false)
    (hovf : s.irq.ovfIrq = true) : exec .takeirq s = .next (setRes 1 (takeOvf s)) := by
  simp [exec, execTakeirq, takeIrq, hpwm, hcmp, hovf]

theorem exec_takeirq_no_request (h : s.irq = ⟨false, false, false⟩) :
    exec .takeirq s = .next (setRes 0 s) := by
  simp [exec, execTakeirq, takeIrq, h]

end TakeIrq

/-- R256: the overflow handler's count saturates at 255. -/
theorem overflowHandler_beaconCount_toNat (s : State) :
    (overflowHandler s).beaconCount.toNat = min (s.beaconCount.toNat + 1) 255 := by
  unfold overflowHandler
  dsimp only
  split
  · bv_omega
  · bv_omega

/-- Settles O44: an equation of TAKEIRQ per request, and the count of the overflow's handler. -/
theorem takeInterruptByPriority : Obligations.TakeInterruptByPriority :=
  fun s => ⟨exec_takeirq_pwm, exec_takeirq_cmp,
    fun hpwm hcmp hovf => ⟨_, exec_takeirq_ovf hpwm hcmp hovf,
      overflowHandler_beaconCount_toNat { s with irq.ovfIrq := false }, rfl⟩,
    exec_takeirq_no_request⟩

/-! ## The order of the handlers (R254) -/

/-- R200: the PWM handler neither reads nor writes what the other two interrupts write. -/
theorem pwmHandler_setOthers (s : State) (a : AlarmState) (f : IrqFlags) (n : Byte) :
    pwmHandler { s with alarm := a, irq := f, beaconCount := n } =
      { pwmHandler s with alarm := a, irq := f, beaconCount := n } := by
  cases h : s.wave.pwmEnabled with
  | false =>
    rw [pwmHandler_of_disabled h]
    exact pwmHandler_of_disabled h
  | true =>
    rw [pwmHandler_of_enabled h]
    exact pwmHandler_of_enabled h

theorem takePwm_setOthers (s : State) (a : AlarmState) (f : IrqFlags) (n : Byte) :
    takePwm { s with alarm := a, irq := f, beaconCount := n } =
      { takePwm s with alarm := a, irq := { f with pwmIrq := false }, beaconCount := n } :=
  pwmHandler_setOthers { s with irq.pwmIrq := false } a { f with pwmIrq := false } n

@[simp] theorem takePwm_irq (s : State) :
    (takePwm s).irq = { s.irq with pwmIrq := false } := by
  simp [takePwm]

/-- R255: the compare match writes nothing the PWM interrupt reads. -/
theorem takePwm_takeCmp (s : State) : takePwm (takeCmp s) = takeCmp (takePwm s) := by
  refine (takePwm_setOthers s { s.alarm with alarmPending := false }
    { s.irq with cmpIrq := false } s.beaconCount).trans ?_
  simp [takeCmp, compareHandler]

/-- R256: the overflow writes nothing the PWM interrupt reads. -/
theorem takePwm_takeOvf (s : State) : takePwm (takeOvf s) = takeOvf (takePwm s) := by
  refine (takePwm_setOthers s s.alarm { s.irq with ovfIrq := false }
    (takeOvf s).beaconCount).trans ?_
  simp [takeOvf, overflowHandler]

/-- Settles O46: the PWM interrupt passes over the writes of the other two, which are to different
elements. -/
theorem handlerOrderDoesNotMatter : Obligations.HandlerOrderDoesNotMatter :=
  fun s => ⟨takePwm_takeCmp s, takePwm_takeOvf s, rfl⟩

/-! ## Three takes (R253) -/

/-- R254: the request flags once the one of highest priority is cleared. -/
def withoutHighest (f : IrqFlags) : IrqFlags :=
  if f.pwmIrq then { f with pwmIrq := false }
  else if f.cmpIrq then { f with cmpIrq := false }
  else if f.ovfIrq then { f with ovfIrq := false }
  else f

theorem withoutHighest_thrice (f : IrqFlags) :
    withoutHighest (withoutHighest (withoutHighest f)) = ⟨false, false, false⟩ := by
  rcases f with ⟨cmp, ovf, pwm⟩
  revert cmp ovf pwm
  decide

@[simp] theorem takeIrq_irq (s : State) : (takeIrq s).2.irq = withoutHighest s.irq := by
  unfold takeIrq withoutHighest
  split_ifs
  · exact takePwm_irq s
  · rfl
  · rfl
  · rfl

/-- R255: a requested compare match stays requested until its handler has cleared the alarm. -/
theorem takeirq_keeps_cmp_or_cleared {s t : State} (htake : exec .takeirq s = .next t)
    (h : s.irq.cmpIrq = true ∨ s.alarm.alarmPending = false) :
    t.irq.cmpIrq = true ∨ t.alarm.alarmPending = false := by
  obtain rfl := Host.Outcome.next.inj htake
  cases hpwm : s.irq.pwmIrq with
  | true => simpa [takeIrq, hpwm] using h
  | false =>
    right
    rw [setRes_alarm, takeIrq_alarmPending hpwm]
    rcases h with hcmp | hcleared
    · simp [hcmp]
    · simp [hcleared]

/-- Settles O47: each take clears the highest request and leaves the foreground alone; a compare
match whose request is gone has been handled. -/
theorem threeTakesClearEveryRequest : Obligations.ThreeTakesClearEveryRequest := by
  refine fun s => ⟨_, _, _, rfl, rfl, rfl, ?_, ?_⟩
  · simp [withoutHighest_thrice]
  · refine ⟨by simp, by simp, by simp, by simp, by simp, by simp, by simp, fun hcmp => ?_⟩
    have hkept := takeirq_keeps_cmp_or_cleared rfl
      (takeirq_keeps_cmp_or_cleared rfl (takeirq_keeps_cmp_or_cleared rfl (.inl hcmp)))
    exact hkept.resolve_left (by simp [withoutHighest_thrice])

/-! ## Every operation answers (R251) -/

/-- Settles O58: WAITAL and PREDICT answer in both of their branches, TICK and RESET are the two
that move the clock, and every other operation's own lemmas say that it keeps it. -/
theorem everyOperationCompletes : Obligations.EveryOperationCompletes := by
  intro i s
  cases i with
  | waital =>
    refine ⟨_, rfl, ?_⟩
    split
    · exact ⟨holdInstr_config s .waital, fun _ _ => holdInstr_tau s .waital⟩
    · exact ⟨rfl, fun _ _ => rfl⟩
  | predict b =>
    refine ⟨_, rfl, ?_⟩
    split
    · exact ⟨setRes_config .., fun _ _ => setRes_tau ..⟩
    · exact ⟨refuseWord_config .., fun _ _ => refuseWord_tau ..⟩
  | tick n => exact ⟨_, rfl, advanceClock_config .., fun htick => absurd rfl (htick n)⟩
  | reset => exact ⟨_, rfl, rfl, fun _ hreset => absurd rfl hreset⟩
  | _ => exact ⟨_, rfl, by simp, fun _ _ => by simp⟩

end Sys2Proof.Machine

/-! # Proofs of the family 70_reset_and_hazards.md -/

namespace Sys2Proof.Machine

/-! ## A PWM handler inside a commutation (R285(1)) -/

/-- R285(1): driving a phase that is neither the old nor the new fixed phase commutes with moving the
fixed phase. -/
theorem floatOld_set_comm {old : Option Phase} {p f : Phase} (hold : old ≠ some p) (hne : p ≠ f)
    (u v : SwState) (w : Switches) :
    (floatOld old f (w.set p u)).set f v = ((floatOld old f w).set f v).set p u := by
  refine Switches.ext_get fun q => ?_
  by_cases hq : q = p
  · subst hq
    simp [get_floatOld, hold, hne]
  · simp [get_floatOld, hq]

/-- R200: the PWM handler neither reads nor writes the commutation step. -/
theorem pwmHandler_setCsm (s : State) (m : Csm) :
    pwmHandler { s with comm.csm := m } = { pwmHandler s with comm.csm := m } := by
  cases h : s.wave.pwmEnabled with
  | false =>
    rw [pwmHandler_of_disabled h]
    exact pwmHandler_of_disabled h
  | true =>
    rw [pwmHandler_of_enabled h]
    exact pwmHandler_of_enabled h

/-- R285(1): the PWM handler, which writes the PWM phase's switch, commutes with moving the fixed
phase from a phase and to a phase that are not the PWM phase. -/
theorem switchFixedPhase_pwmHandler {s : State} {p f : Phase} (hpwm : s.comm.pwmPhase = some p)
    (hold : s.comm.fixedPhase ≠ some p) (hne : p ≠ f) (powered : Bool) :
    switchFixedPhase f powered (pwmHandler s) = pwmHandler (switchFixedPhase f powered s) := by
  cases h : s.wave.pwmEnabled with
  | false =>
    rw [pwmHandler_of_disabled h, pwmHandler_of_disabled (s := switchFixedPhase f powered s) h]
  | true =>
    rw [pwmHandler_of_enabled h, pwmHandler_of_enabled (s := switchFixedPhase f powered s) h]
    simp only [switchFixedPhase, hpwm, Switches.setOpt, State.cfg, waveDrive,
      floatOld_set_comm hold hne]

/-- Settles O31: the phase part (2) hands to the waveform is neither the fixed phase part (3) leaves
nor the one it enters. -/
theorem handlerInsideCommutationIsTheSame : Obligations.HandlerInsideCommutationIsTheSame := by
  intro s h N powered s₂ part3
  obtain ⟨hpwm_fixed, _, _⟩ := step_phases_ne s.cfg N
  have hold : s₂.comm.fixedPhase ≠ some (pwmPhaseOf s.cfg N) := by
    simpa [s₂, switchPwmPhase, selectSense] using fixedPhase_ne_entered_pwmPhase h.phases
  let moved := switchFixedPhase (fixedPhaseOf s.cfg N) powered s₂
  refine ⟨rfl, ?_⟩
  calc part3 (pwmHandler s₂)
    _ = { pwmHandler moved with comm.csm := .step N } :=
      congrArg (fun u => { u with comm.csm := .step N })
        (switchFixedPhase_pwmHandler rfl hold hpwm_fixed powered)
    _ = pwmHandler (part3 s₂) := (pwmHandler_setCsm moved (.step N)).symm

/-! ## Reset (R280) -/

/-- R21: a reset's clock draw is the first number the environment has supplied. -/
theorem drawTau_of_supplied {e : EnvInputs} {n : Nat} {rest : List Nat} (h : e.tauIn = n :: rest) :
    drawTau e = (n, { e with tauIn := rest }) := by
  rw [drawTau, h]

/-- Settles O7: RESET builds a `resetWith` state, whose clock is the draw. -/
theorem resetSetsEveryElement : Obligations.ResetSetsEveryElement :=
  fun s => ⟨resetBlock s, rfl, rfl, rfl, rfl, rfl, rfl, rfl, rfl, rfl, rfl, rfl, rfl, rfl, rfl, rfl,
    fun _ _ hsupplied => congrArg Prod.fst (drawTau_of_supplied hsupplied)⟩

end Sys2Proof.Machine
